-- ==== Sys2Proof/Word.lean ====
section
/-! DEFINITION. The machine's words (00_scope.md R6, R8: XLEN 32, 32 registers, 32-bit addresses). -/

namespace Sys2Proof

/-- A 32-bit unsigned word; arithmetic is modulo 2^32 (R8). -/
abbrev Word := BitVec 32

/-- One byte of memory (R38). -/
abbrev Byte := BitVec 8

/-- A general-register index (R21, R26). -/
abbrev RegIdx := BitVec 5

end Sys2Proof
end

