-- ==== Sys2Proof/Config.lean ====
section
/-! DEFINITION. The configuration of 00_scope.md R6: what the constructor fixes and no cycle changes (R40). -/

namespace Sys2Proof

/-- HAZARD_POLICY (R6). -/
inductive HazardPolicy where
  | stall
  | forward
  deriving DecidableEq, Repr

/-- PREDICTOR (R6, R240). -/
inductive PredictorMode where
  | alwaysTaken
  | alwaysNotTaken
  | oneLevel
  | twoLevel
  deriving DecidableEq, Repr

/-- BYPASS_PRIORITY (R6, R271). -/
inductive BypassPriority where
  | exFirst
  | memFirst
  deriving DecidableEq, Repr

/-- SIGNED_CMP (R6, R122). -/
inductive SignedCmp where
  | signOfDifference
  | trueSigned
  deriving DecidableEq, Repr

/-- AT_MARKER (R6, R400). -/
inductive AtMarker where
  | setSize
  | setAddress
  deriving DecidableEq, Repr

/-- The parameters of R6. FUEL is an argument of `runFuel` only (R412). -/
structure Config where
  hazardPolicy : HazardPolicy
  predictor : PredictorMode
  idxBits : Nat
  histLen : Nat
  memCapacity : Nat
  windowWords : Nat
  bypassPriority : BypassPriority
  signedCmp : SignedCmp
  haltWord : Word
  resultReg : RegIdx
  atMarker : AtMarker
  deriving DecidableEq, Repr

/-- PC_INDEX_LSB, fixed at 2 (R6, R241). -/
def Config.pcIndexLsb : Nat := 2

/-- MEM_BUSY_CYCLES, fixed at 2 (R6, R323). -/
def Config.memBusyCycles : Nat := 2

/-- The settings State.reset is constructed with: R6's defaults, the vector settings of
95_test_vectors.md where R6 gives none, and FORWARD with TWO_LEVEL, the configuration of V1
(DESIGN CHOICE, log 2). Claims are about every configuration. -/
def Config.default : Config where
  hazardPolicy := .forward
  predictor := .twoLevel
  idxBits := 8
  histLen := 2
  memCapacity := 65536
  windowWords := 4
  bypassPriority := .exFirst
  signedCmp := .signOfDifference
  haltWord := 0x0FF00513#32
  resultReg := 10#5
  atMarker := .setSize

/-- The ranges R6 gives its natural-number parameters. The upper bound of the capacity is the
model's (DESIGN CHOICE, log 8): addresses are 32 bits wide, so no byte above could be named. -/
def Config.wf (c : Config) : Bool :=
  decide (1 ≤ c.idxBits) && decide (1 ≤ c.histLen) && decide (4 ≤ c.memCapacity) &&
    decide (c.memCapacity ≤ 2 ^ 32) && decide (1 ≤ c.windowWords)

end Sys2Proof
end

