-- ==== Sys2Proof/Syntax.lean ====
section
/-! DEFINITION. Syntax: the operation kinds (30_encoding.md R81), the DecodedInstruction record
(10_state.md R26), and `Instr`, one constructor per row of spec/opcode_table.json. -/

namespace Sys2Proof

/-- The 40 operation kinds of R81. -/
inductive Kind where
  | NOP | HALT | LUI | AUIPC | JAL | JALR | BEQ | BNE | BLT | BGE
  | BLTU | BGEU | LB | LH | LW | LBU | LHU | SB | SH | SW
  | ADDI | SLTI | SLTIU | XORI | ORI | ANDI | SLLI | SRLI | SRAI | ADD
  | SUB | SLL | SLT | SLTU | XOR | SRL | SRA | OR | AND | ILLEGAL
  deriving DecidableEq, Repr

/-- The class LOAD (R82). -/
def Kind.isLoad (k : Kind) : Bool := [Kind.LB, .LH, .LW, .LBU, .LHU].contains k

/-- The class STORE (R82). -/
def Kind.isStore (k : Kind) : Bool := [Kind.SB, .SH, .SW].contains k

/-- The class BRANCH (R82). -/
def Kind.isBranch (k : Kind) : Bool := [Kind.BEQ, .BNE, .BLT, .BGE, .BLTU, .BGEU].contains k

/-- The class JUMP (R82). -/
def Kind.isJump (k : Kind) : Bool := [Kind.JAL, .JALR].contains k

/-- The class ALU (R82). -/
def Kind.isAlu (k : Kind) : Bool :=
  [Kind.LUI, .AUIPC, .ADDI, .SLTI, .SLTIU, .XORI, .ORI, .ANDI, .SLLI, .SRLI, .SRAI,
    .ADD, .SUB, .SLL, .SLT, .SLTU, .XOR, .SRL, .SRA, .OR, .AND].contains k

/-- The DecodedInstruction record (R26). -/
structure Decoded where
  kind : Kind
  opcode : BitVec 7
  rd : RegIdx
  rs1 : RegIdx
  rs2 : RegIdx
  imm : Word
  shamt : BitVec 5
  funct3 : BitVec 3
  funct7 : BitVec 7
  deriving DecidableEq, Repr

/-- The NOP record: all zero, kind NOP (R26). -/
def Decoded.nop : Decoded := ⟨.NOP, 0, 0, 0, 0, 0, 0, 0, 0⟩

/-- One constructor per row of spec/opcode_table.json. An immediate is held as the decoder
delivers it, sign-extended to 32 bits (R26, R84); `Instr.wf` says which values an encoding has.
`illegal` keeps its word: the record of R85 holds the raw fields of it. -/
inductive Instr where
  | halt
  | lui (rd : RegIdx) (imm : Word)
  | auipc (rd : RegIdx) (imm : Word)
  | jal (rd : RegIdx) (imm : Word)
  | jalr (rd rs1 : RegIdx) (imm : Word)
  | beq (rs1 rs2 : RegIdx) (imm : Word)
  | bne (rs1 rs2 : RegIdx) (imm : Word)
  | blt (rs1 rs2 : RegIdx) (imm : Word)
  | bge (rs1 rs2 : RegIdx) (imm : Word)
  | bltu (rs1 rs2 : RegIdx) (imm : Word)
  | bgeu (rs1 rs2 : RegIdx) (imm : Word)
  | lb (rd rs1 : RegIdx) (imm : Word)
  | lh (rd rs1 : RegIdx) (imm : Word)
  | lw (rd rs1 : RegIdx) (imm : Word)
  | lbu (rd rs1 : RegIdx) (imm : Word)
  | lhu (rd rs1 : RegIdx) (imm : Word)
  | sb (rs1 rs2 : RegIdx) (imm : Word)
  | sh (rs1 rs2 : RegIdx) (imm : Word)
  | sw (rs1 rs2 : RegIdx) (imm : Word)
  | addi (rd rs1 : RegIdx) (imm : Word)
  | slti (rd rs1 : RegIdx) (imm : Word)
  | sltiu (rd rs1 : RegIdx) (imm : Word)
  | xori (rd rs1 : RegIdx) (imm : Word)
  | ori (rd rs1 : RegIdx) (imm : Word)
  | andi (rd rs1 : RegIdx) (imm : Word)
  | slli (rd rs1 : RegIdx) (shamt : BitVec 5)
  | srli (rd rs1 : RegIdx) (shamt : BitVec 5)
  | srai (rd rs1 : RegIdx) (shamt : BitVec 5)
  | add (rd rs1 rs2 : RegIdx)
  | sub (rd rs1 rs2 : RegIdx)
  | sll (rd rs1 rs2 : RegIdx)
  | slt (rd rs1 rs2 : RegIdx)
  | sltu (rd rs1 rs2 : RegIdx)
  | xor (rd rs1 rs2 : RegIdx)
  | srl (rd rs1 rs2 : RegIdx)
  | sra (rd rs1 rs2 : RegIdx)
  | or (rd rs1 rs2 : RegIdx)
  | and (rd rs1 rs2 : RegIdx)
  | illegal (word : Word)
  deriving DecidableEq, Repr

/-- The kind of an instruction (R81). -/
def Instr.kind : Instr → Kind
  | .halt => .HALT
  | .lui _ _ => .LUI
  | .auipc _ _ => .AUIPC
  | .jal _ _ => .JAL
  | .jalr _ _ _ => .JALR
  | .beq _ _ _ => .BEQ
  | .bne _ _ _ => .BNE
  | .blt _ _ _ => .BLT
  | .bge _ _ _ => .BGE
  | .bltu _ _ _ => .BLTU
  | .bgeu _ _ _ => .BGEU
  | .lb _ _ _ => .LB
  | .lh _ _ _ => .LH
  | .lw _ _ _ => .LW
  | .lbu _ _ _ => .LBU
  | .lhu _ _ _ => .LHU
  | .sb _ _ _ => .SB
  | .sh _ _ _ => .SH
  | .sw _ _ _ => .SW
  | .addi _ _ _ => .ADDI
  | .slti _ _ _ => .SLTI
  | .sltiu _ _ _ => .SLTIU
  | .xori _ _ _ => .XORI
  | .ori _ _ _ => .ORI
  | .andi _ _ _ => .ANDI
  | .slli _ _ _ => .SLLI
  | .srli _ _ _ => .SRLI
  | .srai _ _ _ => .SRAI
  | .add _ _ _ => .ADD
  | .sub _ _ _ => .SUB
  | .sll _ _ _ => .SLL
  | .slt _ _ _ => .SLT
  | .sltu _ _ _ => .SLTU
  | .xor _ _ _ => .XOR
  | .srl _ _ _ => .SRL
  | .sra _ _ _ => .SRA
  | .or _ _ _ => .OR
  | .and _ _ _ => .AND
  | .illegal _ => .ILLEGAL

/-- One row of spec/opcode_table.json: a word w is the row's when `w &&& mask = pattern`. -/
structure OpcodeRow where
  kind : Kind
  pattern : Word
  mask : Word
  deriving DecidableEq, Repr

/-- The rows of spec/opcode_table.json between HALT (matched first, R86) and ILLEGAL (matched
last, R92). -/
def opcodeTable : List OpcodeRow :=
  [⟨.LUI, 0x00000037#32, 0x0000007F#32⟩,
   ⟨.AUIPC, 0x00000017#32, 0x0000007F#32⟩,
   ⟨.JAL, 0x0000006F#32, 0x0000007F#32⟩,
   ⟨.JALR, 0x00000067#32, 0x0000707F#32⟩,
   ⟨.BEQ, 0x00000063#32, 0x0000707F#32⟩,
   ⟨.BNE, 0x00001063#32, 0x0000707F#32⟩,
   ⟨.BLT, 0x00004063#32, 0x0000707F#32⟩,
   ⟨.BGE, 0x00005063#32, 0x0000707F#32⟩] ++
  [⟨.BLTU, 0x00006063#32, 0x0000707F#32⟩,
   ⟨.BGEU, 0x00007063#32, 0x0000707F#32⟩,
   ⟨.LB, 0x00000003#32, 0x0000707F#32⟩,
   ⟨.LH, 0x00001003#32, 0x0000707F#32⟩,
   ⟨.LW, 0x00002003#32, 0x0000707F#32⟩,
   ⟨.LBU, 0x00004003#32, 0x0000707F#32⟩,
   ⟨.LHU, 0x00005003#32, 0x0000707F#32⟩,
   ⟨.SB, 0x00000023#32, 0x0000707F#32⟩] ++
  [⟨.SH, 0x00001023#32, 0x0000707F#32⟩,
   ⟨.SW, 0x00002023#32, 0x0000707F#32⟩,
   ⟨.ADDI, 0x00000013#32, 0x0000707F#32⟩,
   ⟨.SLTI, 0x00002013#32, 0x0000707F#32⟩,
   ⟨.SLTIU, 0x00003013#32, 0x0000707F#32⟩,
   ⟨.XORI, 0x00004013#32, 0x0000707F#32⟩,
   ⟨.ORI, 0x00006013#32, 0x0000707F#32⟩,
   ⟨.ANDI, 0x00007013#32, 0x0000707F#32⟩] ++
  [⟨.SLLI, 0x00001013#32, 0xFE00707F#32⟩,
   ⟨.SRLI, 0x00005013#32, 0xFE00707F#32⟩,
   ⟨.SRAI, 0x40005013#32, 0xFE00707F#32⟩,
   ⟨.ADD, 0x00000033#32, 0xFE00707F#32⟩,
   ⟨.SUB, 0x40000033#32, 0xFE00707F#32⟩,
   ⟨.SLL, 0x00001033#32, 0xFE00707F#32⟩,
   ⟨.SLT, 0x00002033#32, 0xFE00707F#32⟩,
   ⟨.SLTU, 0x00003033#32, 0xFE00707F#32⟩] ++
  [⟨.XOR, 0x00004033#32, 0xFE00707F#32⟩,
   ⟨.SRL, 0x00005033#32, 0xFE00707F#32⟩,
   ⟨.SRA, 0x40005033#32, 0xFE00707F#32⟩,
   ⟨.OR, 0x00006033#32, 0xFE00707F#32⟩,
   ⟨.AND, 0x00007033#32, 0xFE00707F#32⟩]

/-- The kind the opcode table gives a word: HALT first, then the first row that matches, else
ILLEGAL (R86, R92). -/
def tableKind (haltWord w : Word) : Kind :=
  if w = haltWord then .HALT
  else match opcodeTable.find? (fun r => w &&& r.mask == r.pattern) with
    | some r => r.kind
    | none => .ILLEGAL

end Sys2Proof
end

