-- ==== Sys2Proof/WellFormed.lean ====
section
/-! DEFINITION. WellFormed: which operand values an instruction's encoding has (30_encoding.md
R83, R84). Register indices and shift amounts are 5-bit fields, so every value of theirs is encodable.
That an instruction's word is not HALT_WORD is a further condition (`Instr.encodable`, Decode.lean). -/

namespace Sys2Proof

/-- An I or S immediate: a sign-extended 12-bit value (R84). -/
def imm12 (imm : Word) : Bool := (imm.extractLsb' 0 12).signExtend 32 == imm

/-- A B immediate: a sign-extended 13-bit value, always even (R84). -/
def immB (imm : Word) : Bool :=
  (imm.extractLsb' 1 12 ++ 0#1).signExtend 32 == imm

/-- A U immediate: twelve zero bits at the bottom (R84). -/
def immU (imm : Word) : Bool := imm.extractLsb' 12 20 ++ 0#12 == imm

/-- A J immediate: a sign-extended 21-bit value, always even (R84). -/
def immJ (imm : Word) : Bool :=
  (imm.extractLsb' 1 20 ++ 0#1).signExtend 32 == imm

/-- The operands are values the instruction's format holds. An `illegal` instruction's word is
one that no row of the opcode table matches (R92). -/
def Instr.wf : Instr → Bool
  | .halt => true
  | .lui _ imm => immU imm
  | .auipc _ imm => immU imm
  | .jal _ imm => immJ imm
  | .jalr _ _ imm => imm12 imm
  | .beq _ _ imm => immB imm
  | .bne _ _ imm => immB imm
  | .blt _ _ imm => immB imm
  | .bge _ _ imm => immB imm
  | .bltu _ _ imm => immB imm
  | .bgeu _ _ imm => immB imm
  | .lb _ _ imm => imm12 imm
  | .lh _ _ imm => imm12 imm
  | .lw _ _ imm => imm12 imm
  | .lbu _ _ imm => imm12 imm
  | .lhu _ _ imm => imm12 imm
  | .sb _ _ imm => imm12 imm
  | .sh _ _ imm => imm12 imm
  | .sw _ _ imm => imm12 imm
  | .addi _ _ imm => imm12 imm
  | .slti _ _ imm => imm12 imm
  | .sltiu _ _ imm => imm12 imm
  | .xori _ _ imm => imm12 imm
  | .ori _ _ imm => imm12 imm
  | .andi _ _ imm => imm12 imm
  | .slli _ _ _ => true
  | .srli _ _ _ => true
  | .srai _ _ _ => true
  | .add _ _ _ => true
  | .sub _ _ _ => true
  | .sll _ _ _ => true
  | .slt _ _ _ => true
  | .sltu _ _ _ => true
  | .xor _ _ _ => true
  | .srl _ _ _ => true
  | .sra _ _ _ => true
  | .or _ _ _ => true
  | .and _ _ _ => true
  | .illegal w => opcodeTable.all (fun r => w &&& r.mask != r.pattern)

end Sys2Proof
end

