-- ==== Sys2Proof/Decode.lean ====
section
/-! DEFINITION. Decode: the decode function of 30_encoding.md (R80 to R92), total on any word and
on any bytes, the record it delivers (R85), and after it the encoder. -/

namespace Sys2Proof

/-! ## Fields and immediates (R83, R84) -/

/-- The raw field opcode = w[6:0] (R83). -/
def opcodeOf (w : Word) : BitVec 7 := w.extractLsb' 0 7

/-- The raw field rd = w[11:7] (R83). -/
def rdOf (w : Word) : RegIdx := w.extractLsb' 7 5

/-- The raw field funct3 = w[14:12] (R83). -/
def funct3Of (w : Word) : BitVec 3 := w.extractLsb' 12 3

/-- The raw field rs1 = w[19:15] (R83). -/
def rs1Of (w : Word) : RegIdx := w.extractLsb' 15 5

/-- The raw field rs2 = w[24:20] (R83). -/
def rs2Of (w : Word) : RegIdx := w.extractLsb' 20 5

/-- The raw field shamt = w[24:20] (R83). -/
def shamtOf (w : Word) : BitVec 5 := w.extractLsb' 20 5

/-- The raw field funct7 = w[31:25] (R83). -/
def funct7Of (w : Word) : BitVec 7 := w.extractLsb' 25 7

/-- The I immediate (R84). -/
def immIOf (w : Word) : Word := (w.extractLsb' 20 12).signExtend 32

/-- The S immediate (R84). -/
def immSOf (w : Word) : Word := (w.extractLsb' 25 7 ++ w.extractLsb' 7 5).signExtend 32

/-- The B immediate (R84). -/
def immBOf (w : Word) : Word :=
  (w.extractLsb' 31 1 ++ w.extractLsb' 7 1 ++ w.extractLsb' 25 6 ++ w.extractLsb' 8 4 ++
    0#1).signExtend 32

/-- The U immediate (R84). -/
def immUOf (w : Word) : Word := w.extractLsb' 12 20 ++ 0#12

/-- The J immediate (R84). -/
def immJOf (w : Word) : Word :=
  (w.extractLsb' 31 1 ++ w.extractLsb' 12 8 ++ w.extractLsb' 20 1 ++ w.extractLsb' 21 10 ++
    0#1).signExtend 32

/-! ## The decode function -/

/-- Opcode 0x63 by funct3 (R88); funct3 010 and 011 are ILLEGAL (R92). -/
def decodeBranch (w : Word) : Instr :=
  if funct3Of w = 0#3 then .beq (rs1Of w) (rs2Of w) (immBOf w)
  else if funct3Of w = 1#3 then .bne (rs1Of w) (rs2Of w) (immBOf w)
  else if funct3Of w = 4#3 then .blt (rs1Of w) (rs2Of w) (immBOf w)
  else if funct3Of w = 5#3 then .bge (rs1Of w) (rs2Of w) (immBOf w)
  else if funct3Of w = 6#3 then .bltu (rs1Of w) (rs2Of w) (immBOf w)
  else if funct3Of w = 7#3 then .bgeu (rs1Of w) (rs2Of w) (immBOf w)
  else .illegal w

/-- Opcode 0x03 by funct3 (R89); funct3 011, 110 and 111 are ILLEGAL (R92). -/
def decodeLoad (w : Word) : Instr :=
  if funct3Of w = 0#3 then .lb (rdOf w) (rs1Of w) (immIOf w)
  else if funct3Of w = 1#3 then .lh (rdOf w) (rs1Of w) (immIOf w)
  else if funct3Of w = 2#3 then .lw (rdOf w) (rs1Of w) (immIOf w)
  else if funct3Of w = 4#3 then .lbu (rdOf w) (rs1Of w) (immIOf w)
  else if funct3Of w = 5#3 then .lhu (rdOf w) (rs1Of w) (immIOf w)
  else .illegal w

/-- Opcode 0x23 by funct3 (R89); funct3 011 and above is ILLEGAL (R92). -/
def decodeStore (w : Word) : Instr :=
  if funct3Of w = 0#3 then .sb (rs1Of w) (rs2Of w) (immSOf w)
  else if funct3Of w = 1#3 then .sh (rs1Of w) (rs2Of w) (immSOf w)
  else if funct3Of w = 2#3 then .sw (rs1Of w) (rs2Of w) (immSOf w)
  else .illegal w

/-- Opcode 0x13 by funct3, and for the shifts by funct7 (R90); a shift with any other funct7 is
ILLEGAL (R92). -/
def decodeAluImm (w : Word) : Instr :=
  if funct3Of w = 0#3 then .addi (rdOf w) (rs1Of w) (immIOf w)
  else if funct3Of w = 2#3 then .slti (rdOf w) (rs1Of w) (immIOf w)
  else if funct3Of w = 3#3 then .sltiu (rdOf w) (rs1Of w) (immIOf w)
  else if funct3Of w = 4#3 then .xori (rdOf w) (rs1Of w) (immIOf w)
  else if funct3Of w = 6#3 then .ori (rdOf w) (rs1Of w) (immIOf w)
  else if funct3Of w = 7#3 then .andi (rdOf w) (rs1Of w) (immIOf w)
  else if funct3Of w = 1#3 ∧ funct7Of w = 0x00#7 then .slli (rdOf w) (rs1Of w) (shamtOf w)
  else if funct3Of w = 5#3 ∧ funct7Of w = 0x00#7 then .srli (rdOf w) (rs1Of w) (shamtOf w)
  else if funct3Of w = 5#3 ∧ funct7Of w = 0x20#7 then .srai (rdOf w) (rs1Of w) (shamtOf w)
  else .illegal w

/-- Opcode 0x33 by (funct3, funct7) (R90); any other pair is ILLEGAL (R92). -/
def decodeAluReg (w : Word) : Instr :=
  if funct3Of w = 0#3 ∧ funct7Of w = 0x00#7 then .add (rdOf w) (rs1Of w) (rs2Of w)
  else if funct3Of w = 0#3 ∧ funct7Of w = 0x20#7 then .sub (rdOf w) (rs1Of w) (rs2Of w)
  else if funct3Of w = 1#3 ∧ funct7Of w = 0x00#7 then .sll (rdOf w) (rs1Of w) (rs2Of w)
  else if funct3Of w = 2#3 ∧ funct7Of w = 0x00#7 then .slt (rdOf w) (rs1Of w) (rs2Of w)
  else if funct3Of w = 3#3 ∧ funct7Of w = 0x00#7 then .sltu (rdOf w) (rs1Of w) (rs2Of w)
  else if funct3Of w = 4#3 ∧ funct7Of w = 0x00#7 then .xor (rdOf w) (rs1Of w) (rs2Of w)
  else if funct3Of w = 5#3 ∧ funct7Of w = 0x00#7 then .srl (rdOf w) (rs1Of w) (rs2Of w)
  else if funct3Of w = 5#3 ∧ funct7Of w = 0x20#7 then .sra (rdOf w) (rs1Of w) (rs2Of w)
  else if funct3Of w = 6#3 ∧ funct7Of w = 0x00#7 then .or (rdOf w) (rs1Of w) (rs2Of w)
  else if funct3Of w = 7#3 ∧ funct7Of w = 0x00#7 then .and (rdOf w) (rs1Of w) (rs2Of w)
  else .illegal w

/-- `decodeRV32I` (R86 to R92): the HALT word first, then by opcode; every word that nothing
matches is ILLEGAL, among them 0x00000000, FENCE and SYSTEM. -/
def decodeWord (haltWord w : Word) : Instr :=
  if w = haltWord then .halt
  else if opcodeOf w = 0x37#7 then .lui (rdOf w) (immUOf w)
  else if opcodeOf w = 0x17#7 then .auipc (rdOf w) (immUOf w)
  else if opcodeOf w = 0x6F#7 then .jal (rdOf w) (immJOf w)
  else if opcodeOf w = 0x67#7 then
    if funct3Of w = 0#3 then .jalr (rdOf w) (rs1Of w) (immIOf w) else .illegal w
  else if opcodeOf w = 0x63#7 then decodeBranch w
  else if opcodeOf w = 0x03#7 then decodeLoad w
  else if opcodeOf w = 0x23#7 then decodeStore w
  else if opcodeOf w = 0x13#7 then decodeAluImm w
  else if opcodeOf w = 0x33#7 then decodeAluReg w
  else .illegal w

/-- Why bytes are no instruction: the one reason is that fewer than four are left. -/
inductive DecodeError where
  | truncated (bytesLeft : Nat)
  deriving DecidableEq, Repr

/-- The instruction at the front of a byte list and the bytes after it; a word is stored
little-endian (R63). Total on any bytes: every four bytes are an instruction, `illegal` among
them, and fewer than four are rejected by name. -/
def decodeBytes (haltWord : Word) : List Byte → Except DecodeError (Instr × List Byte)
  | b0 :: b1 :: b2 :: b3 :: rest => .ok (decodeWord haltWord (b3 ++ b2 ++ b1 ++ b0), rest)
  | bs => .error (.truncated bs.length)

/-- The four bytes of a word as memory holds them, the lowest address first (R63). -/
def wordBytes (w : Word) : List Byte :=
  [w.extractLsb' 0 8, w.extractLsb' 8 8, w.extractLsb' 16 8, w.extractLsb' 24 8]

/-- The decoder's answer for a row of spec/opcode_table.json: bits above `nbits` are 0, the word
is laid out as memory holds it, under the default HALT_WORD. -/
def decodeTableWord (nbits w : Nat) : Option Instr :=
  match decodeBytes Config.default.haltWord (wordBytes (BitVec.ofNat 32 (w % 2 ^ nbits))) with
  | .ok (i, _) => some i
  | .error _ => none

/-! ## The record the decoder delivers (R26, R85) -/

/-- A record with its raw fields taken from the word and the operand fields given: R85's "opcode,
funct3 and funct7 are the raw fields for every kind except NOP". -/
def Decoded.of (w : Word) (k : Kind) (rd rs1 rs2 : RegIdx) (imm : Word) (shamt : BitVec 5) :
    Decoded :=
  { kind := k, opcode := opcodeOf w, rd := rd, rs1 := rs1, rs2 := rs2, imm := imm,
    shamt := shamt, funct3 := funct3Of w, funct7 := funct7Of w }

/-- The DecodedInstruction record of an instruction decoded from the word `w`: every field its
format does not use is 0 (R85). A shift by an immediate is of format I, so its `imm` is that of R84, which
no rule reads (DEDUCED, log 11). -/
def Instr.record (w : Word) : Instr → Decoded
  | .halt => .of w .HALT 0 0 0 0 0
  | .lui rd imm => .of w .LUI rd 0 0 imm 0
  | .auipc rd imm => .of w .AUIPC rd 0 0 imm 0
  | .jal rd imm => .of w .JAL rd 0 0 imm 0
  | .jalr rd rs1 imm => .of w .JALR rd rs1 0 imm 0
  | .beq rs1 rs2 imm => .of w .BEQ 0 rs1 rs2 imm 0
  | .bne rs1 rs2 imm => .of w .BNE 0 rs1 rs2 imm 0
  | .blt rs1 rs2 imm => .of w .BLT 0 rs1 rs2 imm 0
  | .bge rs1 rs2 imm => .of w .BGE 0 rs1 rs2 imm 0
  | .bltu rs1 rs2 imm => .of w .BLTU 0 rs1 rs2 imm 0
  | .bgeu rs1 rs2 imm => .of w .BGEU 0 rs1 rs2 imm 0
  | .lb rd rs1 imm => .of w .LB rd rs1 0 imm 0
  | .lh rd rs1 imm => .of w .LH rd rs1 0 imm 0
  | .lw rd rs1 imm => .of w .LW rd rs1 0 imm 0
  | .lbu rd rs1 imm => .of w .LBU rd rs1 0 imm 0
  | .lhu rd rs1 imm => .of w .LHU rd rs1 0 imm 0
  | .sb rs1 rs2 imm => .of w .SB 0 rs1 rs2 imm 0
  | .sh rs1 rs2 imm => .of w .SH 0 rs1 rs2 imm 0
  | .sw rs1 rs2 imm => .of w .SW 0 rs1 rs2 imm 0
  | .addi rd rs1 imm => .of w .ADDI rd rs1 0 imm 0
  | .slti rd rs1 imm => .of w .SLTI rd rs1 0 imm 0
  | .sltiu rd rs1 imm => .of w .SLTIU rd rs1 0 imm 0
  | .xori rd rs1 imm => .of w .XORI rd rs1 0 imm 0
  | .ori rd rs1 imm => .of w .ORI rd rs1 0 imm 0
  | .andi rd rs1 imm => .of w .ANDI rd rs1 0 imm 0
  | .slli rd rs1 shamt => .of w .SLLI rd rs1 0 (immIOf w) shamt
  | .srli rd rs1 shamt => .of w .SRLI rd rs1 0 (immIOf w) shamt
  | .srai rd rs1 shamt => .of w .SRAI rd rs1 0 (immIOf w) shamt
  | .add rd rs1 rs2 => .of w .ADD rd rs1 rs2 0 0
  | .sub rd rs1 rs2 => .of w .SUB rd rs1 rs2 0 0
  | .sll rd rs1 rs2 => .of w .SLL rd rs1 rs2 0 0
  | .slt rd rs1 rs2 => .of w .SLT rd rs1 rs2 0 0
  | .sltu rd rs1 rs2 => .of w .SLTU rd rs1 rs2 0 0
  | .xor rd rs1 rs2 => .of w .XOR rd rs1 rs2 0 0
  | .srl rd rs1 rs2 => .of w .SRL rd rs1 rs2 0 0
  | .sra rd rs1 rs2 => .of w .SRA rd rs1 rs2 0 0
  | .or rd rs1 rs2 => .of w .OR rd rs1 rs2 0 0
  | .and rd rs1 rs2 => .of w .AND rd rs1 rs2 0 0
  | .illegal _ => .of w .ILLEGAL 0 0 0 0 0

/-- The instruction a latch's record and word stand for; none for NOP, the bubble (R93). -/
def Decoded.instr (d : Decoded) (w : Word) : Option Instr :=
  match d.kind with
  | .NOP => none
  | .HALT => some .halt
  | .LUI => some (.lui d.rd d.imm)
  | .AUIPC => some (.auipc d.rd d.imm)
  | .JAL => some (.jal d.rd d.imm)
  | .JALR => some (.jalr d.rd d.rs1 d.imm)
  | .BEQ => some (.beq d.rs1 d.rs2 d.imm)
  | .BNE => some (.bne d.rs1 d.rs2 d.imm)
  | .BLT => some (.blt d.rs1 d.rs2 d.imm)
  | .BGE => some (.bge d.rs1 d.rs2 d.imm)
  | .BLTU => some (.bltu d.rs1 d.rs2 d.imm)
  | .BGEU => some (.bgeu d.rs1 d.rs2 d.imm)
  | .LB => some (.lb d.rd d.rs1 d.imm)
  | .LH => some (.lh d.rd d.rs1 d.imm)
  | .LW => some (.lw d.rd d.rs1 d.imm)
  | .LBU => some (.lbu d.rd d.rs1 d.imm)
  | .LHU => some (.lhu d.rd d.rs1 d.imm)
  | .SB => some (.sb d.rs1 d.rs2 d.imm)
  | .SH => some (.sh d.rs1 d.rs2 d.imm)
  | .SW => some (.sw d.rs1 d.rs2 d.imm)
  | .ADDI => some (.addi d.rd d.rs1 d.imm)
  | .SLTI => some (.slti d.rd d.rs1 d.imm)
  | .SLTIU => some (.sltiu d.rd d.rs1 d.imm)
  | .XORI => some (.xori d.rd d.rs1 d.imm)
  | .ORI => some (.ori d.rd d.rs1 d.imm)
  | .ANDI => some (.andi d.rd d.rs1 d.imm)
  | .SLLI => some (.slli d.rd d.rs1 d.shamt)
  | .SRLI => some (.srli d.rd d.rs1 d.shamt)
  | .SRAI => some (.srai d.rd d.rs1 d.shamt)
  | .ADD => some (.add d.rd d.rs1 d.rs2)
  | .SUB => some (.sub d.rd d.rs1 d.rs2)
  | .SLL => some (.sll d.rd d.rs1 d.rs2)
  | .SLT => some (.slt d.rd d.rs1 d.rs2)
  | .SLTU => some (.sltu d.rd d.rs1 d.rs2)
  | .XOR => some (.xor d.rd d.rs1 d.rs2)
  | .SRL => some (.srl d.rd d.rs1 d.rs2)
  | .SRA => some (.sra d.rd d.rs1 d.rs2)
  | .OR => some (.or d.rd d.rs1 d.rs2)
  | .AND => some (.and d.rd d.rs1 d.rs2)
  | .ILLEGAL => some (.illegal w)

/-! ## The encoder, written from R83's format table -/

/-- The R format (R83). -/
def encR (funct7 : BitVec 7) (rs2 rs1 : RegIdx) (funct3 : BitVec 3) (rd : RegIdx)
    (opcode : BitVec 7) : Word :=
  funct7 ++ rs2 ++ rs1 ++ funct3 ++ rd ++ opcode

/-- The I format (R83). -/
def encI (imm : Word) (rs1 : RegIdx) (funct3 : BitVec 3) (rd : RegIdx) (opcode : BitVec 7) : Word :=
  imm.extractLsb' 0 12 ++ rs1 ++ funct3 ++ rd ++ opcode

/-- The S format (R83). -/
def encS (imm : Word) (rs2 rs1 : RegIdx) (funct3 : BitVec 3) (opcode : BitVec 7) : Word :=
  imm.extractLsb' 5 7 ++ rs2 ++ rs1 ++ funct3 ++ imm.extractLsb' 0 5 ++ opcode

/-- The B format (R83). -/
def encB (imm : Word) (rs2 rs1 : RegIdx) (funct3 : BitVec 3) (opcode : BitVec 7) : Word :=
  imm.extractLsb' 12 1 ++ imm.extractLsb' 5 6 ++ rs2 ++ rs1 ++ funct3 ++ imm.extractLsb' 1 4 ++
    imm.extractLsb' 11 1 ++ opcode

/-- The U format (R83). -/
def encU (imm : Word) (rd : RegIdx) (opcode : BitVec 7) : Word :=
  imm.extractLsb' 12 20 ++ rd ++ opcode

/-- The J format (R83). -/
def encJ (imm : Word) (rd : RegIdx) (opcode : BitVec 7) : Word :=
  imm.extractLsb' 20 1 ++ imm.extractLsb' 1 10 ++ imm.extractLsb' 11 1 ++
    imm.extractLsb' 12 8 ++ rd ++ opcode

/-- The word of an instruction (R83 to R92). -/
def encode (haltWord : Word) : Instr → Word
  | .halt => haltWord
  | .lui rd imm => encU imm rd 0x37#7
  | .auipc rd imm => encU imm rd 0x17#7
  | .jal rd imm => encJ imm rd 0x6F#7
  | .jalr rd rs1 imm => encI imm rs1 0#3 rd 0x67#7
  | .beq rs1 rs2 imm => encB imm rs2 rs1 0#3 0x63#7
  | .bne rs1 rs2 imm => encB imm rs2 rs1 1#3 0x63#7
  | .blt rs1 rs2 imm => encB imm rs2 rs1 4#3 0x63#7
  | .bge rs1 rs2 imm => encB imm rs2 rs1 5#3 0x63#7
  | .bltu rs1 rs2 imm => encB imm rs2 rs1 6#3 0x63#7
  | .bgeu rs1 rs2 imm => encB imm rs2 rs1 7#3 0x63#7
  | .lb rd rs1 imm => encI imm rs1 0#3 rd 0x03#7
  | .lh rd rs1 imm => encI imm rs1 1#3 rd 0x03#7
  | .lw rd rs1 imm => encI imm rs1 2#3 rd 0x03#7
  | .lbu rd rs1 imm => encI imm rs1 4#3 rd 0x03#7
  | .lhu rd rs1 imm => encI imm rs1 5#3 rd 0x03#7
  | .sb rs1 rs2 imm => encS imm rs2 rs1 0#3 0x23#7
  | .sh rs1 rs2 imm => encS imm rs2 rs1 1#3 0x23#7
  | .sw rs1 rs2 imm => encS imm rs2 rs1 2#3 0x23#7
  | .addi rd rs1 imm => encI imm rs1 0#3 rd 0x13#7
  | .slti rd rs1 imm => encI imm rs1 2#3 rd 0x13#7
  | .sltiu rd rs1 imm => encI imm rs1 3#3 rd 0x13#7
  | .xori rd rs1 imm => encI imm rs1 4#3 rd 0x13#7
  | .ori rd rs1 imm => encI imm rs1 6#3 rd 0x13#7
  | .andi rd rs1 imm => encI imm rs1 7#3 rd 0x13#7
  | .slli rd rs1 shamt => encR 0x00#7 shamt rs1 1#3 rd 0x13#7
  | .srli rd rs1 shamt => encR 0x00#7 shamt rs1 5#3 rd 0x13#7
  | .srai rd rs1 shamt => encR 0x20#7 shamt rs1 5#3 rd 0x13#7
  | .add rd rs1 rs2 => encR 0x00#7 rs2 rs1 0#3 rd 0x33#7
  | .sub rd rs1 rs2 => encR 0x20#7 rs2 rs1 0#3 rd 0x33#7
  | .sll rd rs1 rs2 => encR 0x00#7 rs2 rs1 1#3 rd 0x33#7
  | .slt rd rs1 rs2 => encR 0x00#7 rs2 rs1 2#3 rd 0x33#7
  | .sltu rd rs1 rs2 => encR 0x00#7 rs2 rs1 3#3 rd 0x33#7
  | .xor rd rs1 rs2 => encR 0x00#7 rs2 rs1 4#3 rd 0x33#7
  | .srl rd rs1 rs2 => encR 0x00#7 rs2 rs1 5#3 rd 0x33#7
  | .sra rd rs1 rs2 => encR 0x20#7 rs2 rs1 5#3 rd 0x33#7
  | .or rd rs1 rs2 => encR 0x00#7 rs2 rs1 6#3 rd 0x33#7
  | .and rd rs1 rs2 => encR 0x00#7 rs2 rs1 7#3 rd 0x33#7
  | .illegal w => w

/-- An instruction that some word stands for: its operands fit, and its word is not HALT_WORD
unless it is HALT (R86, R91: that word never executes as an ADDI). -/
def Instr.encodable (haltWord : Word) (i : Instr) : Bool :=
  i.wf && (i == .halt || encode haltWord i != haltWord)

end Sys2Proof
end

