-- ==== Sys2Proof/Machine/State.lean ====
section
/-! DEFINITION. The machine's state as plain data (10_state.md), the ways a step can stop, and the
state after reset (R41). -/

namespace Sys2Proof.Machine

/-- The machine's faults, each with its 32-bit address (60_exceptions.md R370). The machine takes
every one of them by ending the run with `faulted` set (R305, R308, R321, R376), so the cycle that
raises one answers a next state. `step` answers `Outcome.fault` with it only when asked to go on from a run
that has ended faulted: there is no later cycle, so that stop is safe (log 5). -/
inductive Fault where
  /-- Raised by EX for a word decoded as ILLEGAL; the address is its fetch pc (R373). -/
  | illegalInstruction (addr : Word)
  /-- Raised by MEM for a data access beyond capacity (R374), or tagged by IF on a fetch beyond
  capacity (R71) and raised by EX (R372). -/
  | outOfBounds (addr : Word)
  /-- Tagged by IF at a pc that is not a multiple of 4 (R65) and raised by EX (R372). -/
  | misalignedFetch (addr : Word)
  /-- Tagged by IF on a fetch of bytes stored to since the window block was loaded (R73) and
  raised by EX (R372). -/
  | staleFetch (addr : Word)
  /-- Raised when the controller's own protocol is broken; the address is that of the instruction
  in EX (R376). -/
  | controllerInvariant (addr : Word)
  deriving DecidableEq, Repr

/-- A refusal: the model has no meaning for the instruction. Raised by an arm of `exec` that is
not written yet (safe: nothing is claimed); no arm is one. -/
inductive Refusal where
  | notModelled (mnemonic : String)
  deriving DecidableEq, Repr

/-- The five stages (R3, R10). -/
inductive Stage where
  | ifetch
  | id
  | ex
  | mem
  | wb
  deriving DecidableEq, Repr

/-- All five stages, in pipeline order. -/
def Stage.all : List Stage := [.ifetch, .id, .ex, .mem, .wb]

/-- The stages in which a decoded instruction acts: the stage that presents its instruction to
`exec` (log 4). IF has no decoded instruction. -/
inductive Phase where
  | id
  | ex
  | mem
  | wb
  deriving DecidableEq, Repr

/-- A latch record (R27, R28). -/
structure Latch where
  inst : Decoded
  word : Word
  out : Word
  pc : Word
  a : Word
  b : Word
  valid : Bool
  fault : Option Fault
  deriving DecidableEq, Repr

/-- The empty latch (R30). -/
def Latch.empty : Latch :=
  { inst := .nop, word := 0, out := 0, pc := 0, a := 0, b := 0, valid := false, fault := none }

/-- The eight latches: four inter-stage, four working (R31). -/
structure Latches where
  ifId : Latch
  idEx : Latch
  exMem : Latch
  memWb : Latch
  curId : Latch
  curEx : Latch
  curMem : Latch
  curWb : Latch
  deriving DecidableEq, Repr

/-- One counter per stage (R32). -/
structure StageCounters where
  ifetch : Nat
  id : Nat
  ex : Nat
  mem : Nat
  wb : Nat
  deriving DecidableEq, Repr

/-- The Clock's eleven counters (R32). -/
structure Clock where
  stall : StageCounters
  defer : StageCounters
  memBusy : Nat
  deriving DecidableEq, Repr

/-- A forwarding slot; `reg = 0` means empty (R33). -/
structure FwSlot where
  reg : RegIdx
  val : Word
  deriving DecidableEq, Repr

/-- The forwarding table's four slots (R33). -/
structure FwTable where
  visEx : FwSlot
  pendEx : FwSlot
  visMem : FwSlot
  pendMem : FwSlot
  deriving DecidableEq, Repr

/-- The predictor's state (R34). A table lists the entries that are not 0, by rising index. A
history is the number its HIST_LEN bits make (DEDUCED, log 12). -/
structure Predictor where
  bht : List (Nat × BitVec 2)
  pht : List (Nat × Nat)
  pValid : Bool
  pAddr : Nat
  pCtr : Nat
  pPred : Bool
  deriving DecidableEq, Repr

/-- The control-transfer signals held across cycles (R35). -/
structure Control where
  branchInFlight : Bool
  delayedSecondBranch : Bool
  branchTarget : Word
  deriving DecidableEq, Repr

/-- The run state (R36). -/
structure RunState where
  halting : Bool
  done : Bool
  faulted : Option Fault
  deriving DecidableEq, Repr

/-- The instruction window (R37). An absent word is `none`; `dirty` is the set of stored-to byte
addresses, rising. -/
structure Window where
  valid : Bool
  base : Word
  words : List (Option Word)
  cursor : Nat
  dirty : List Nat
  deriving DecidableEq, Repr

/-- The reporting counters (R39). -/
structure Stats where
  hits : Nat
  misses : Nat
  hazardCount : Nat
  cycleCount : Nat
  deriving DecidableEq, Repr

/-- The model's own field: what one cycle produces and consumes (R35, R301 to R310), idle between
cycles (DESIGN CHOICE, log 3). -/
structure Wires where
  /-- The stage presenting its instruction to `exec` (log 4). -/
  phase : Phase
  /-- This cycle's propagation refreshed curID (R303). -/
  idFresh : Bool
  /-- run(ID) held in step 2 (R330). -/
  idRan : Bool
  /-- ID's jump signal (R304). -/
  idJump : Option Word
  /-- ID's branch signal (R304). -/
  idBranch : Option Word
  /-- EX's resolution signal (taken, actualTarget) (R307). -/
  exBranch : Option (Bool × Word)
  /-- EX's halt signal (R305). -/
  exHalt : Bool
  /-- EX's memory-access request (R307). -/
  memReq : Bool
  /-- EX met a broken controller protocol (R307, R376). -/
  exStop : Option Fault
  /-- MEM's fault (R308). -/
  memStop : Option Fault
  /-- The byte addresses MEM stored to, about to join winDirty (R61, R294). -/
  stored : List Nat
  /-- WB's halt signal with its latch's fault (R310). -/
  wbHalt : Option (Option Fault)
  deriving DecidableEq, Repr

/-- No signal asserted. -/
def Wires.idle : Wires :=
  { phase := .ex, idFresh := false, idRan := false, idJump := none, idBranch := none,
    exBranch := none, exHalt := false, memReq := false, exStop := none, memStop := none,
    stored := [], wbHalt := none }

/-- The machine's state. -/
structure State where
  cfg : Config
  regs : Vector Word 32
  pc : Word
  pipe : Latches
  clock : Clock
  fw : FwTable
  pred : Predictor
  ctl : Control
  run : RunState
  win : Window
  mem : List Host.Cell
  logicalSize : Word
  stats : Stats
  wires : Wires
  deriving DecidableEq, Repr

/-- Five counters at 0. -/
def StageCounters.zero : StageCounters := ⟨0, 0, 0, 0, 0⟩

/-- An empty forwarding slot (R33). -/
def FwSlot.empty : FwSlot := ⟨0, 0⟩

/-- Construction: every piece of state at its value at the start of cycle 1 (R41, R401), with the
configuration and the loaded image given. -/
def State.init (c : Config) (image : List Host.Cell) (size : Word) : State where
  cfg := c
  regs := Vector.replicate 32 0
  pc := 0
  pipe := ⟨.empty, .empty, .empty, .empty, .empty, .empty, .empty, .empty⟩
  clock := ⟨.zero, .zero, 0⟩
  fw := ⟨.empty, .empty, .empty, .empty⟩
  pred := ⟨[], [], false, 0, 0, false⟩
  ctl := ⟨false, false, 0⟩
  run := ⟨false, false, none⟩
  win := ⟨false, 0, List.replicate c.windowWords none, 0, []⟩
  mem := image
  logicalSize := size
  stats := ⟨0, 0, 0, 0⟩
  wires := .idle

/-- The machine right after reset: constructed with the default configuration and the empty image
(R41, R401; log 2, log 7). -/
def State.reset : State := State.init Config.default [] 0

end Sys2Proof.Machine
end

