-- ==== Sys2Proof/Machine/Flags.lean ====
section
/-! DEFINITION. The ALU, its two unstored flags, and the comparisons made of them (40_alu_ops.md
R120 to R122). -/

namespace Sys2Proof.Machine

/-- The ALU's operations (R120). -/
inductive AluOp where
  | add
  | sub
  | sll
  | sr
  | and
  | or
  | xor
  deriving DecidableEq, Repr

/-- The shift amount: the low 5 bits of the second operand (R120). -/
def shiftAmount (b : Word) : Nat := (b.extractLsb' 0 5).toNat

/-- The ALU's result (R120). -/
def alu (a b : Word) (op : AluOp) (signed : Bool := true) : Word :=
  match op with
  | .add => a + b
  | .sub => a - b
  | .sll => a <<< shiftAmount b
  | .sr => if signed then a.sshiftRight (shiftAmount b) else a >>> shiftAmount b
  | .and => a &&& b
  | .or => a ||| b
  | .xor => a ^^^ b

/-- The zero flag: the result is 0 (R121). -/
def aluZero (a b : Word) (op : AluOp) (signed : Bool := true) : Bool := alu a b op signed == 0#32

/-- The negative flag: the result's sign bit when signed, the unsigned comparison `a < b` when not
(R121). -/
def aluNeg (a b : Word) (op : AluOp) (signed : Bool := true) : Bool :=
  if signed then (alu a b op signed).msb else a.ult b

/-- `ltu(a, b)` (R122). -/
def ltu (a b : Word) : Bool := aluNeg a b .sub false

/-- `lts(a, b)` (R122): the sign of the wrapped difference, or the true comparison, as SIGNED_CMP
says (log 15). -/
def lts (c : SignedCmp) (a b : Word) : Bool :=
  match c with
  | .signOfDifference => aluNeg a b .sub true
  | .trueSigned => a.slt b

/-- `eq(a, b)` (R122). -/
def aluEq (a b : Word) : Bool := aluZero a b .sub true

/-- A truth value as a result word: 1 or 0 (R127, R165). -/
def ofBool (p : Bool) : Word := if p then 1#32 else 0#32

end Sys2Proof.Machine
end

