-- ==== Sys2Proof/Machine/Ops.lean ====
section
/-! DEFINITION. The named operations on memory, registers, latches and counters, and the one
operation with which the machine takes a fault (60_exceptions.md R305, R308, R372, R374). -/

namespace Sys2Proof.Machine

/-! ## Sparse tables: the entries that differ from a default, by rising key -/

/-- The entry at key `k`, `d` where none is listed. -/
def tableGet {α : Type} (d : α) : List (Nat × α) → Nat → α
  | [], _ => d
  | (k', v) :: rest, k => if k = k' then v else tableGet d rest k

/-- The table with the entry at key `k` set to `v`; writing `d` removes the entry. -/
def tablePut {α : Type} [DecidableEq α] (d : α) : List (Nat × α) → Nat → α → List (Nat × α)
  | [], k, v => if v = d then [] else [(k, v)]
  | (k', v') :: rest, k, v =>
    if k = k' then (if v = d then rest else (k, v) :: rest)
    else if k < k' then (if v = d then (k', v') :: rest else (k, v) :: (k', v') :: rest)
    else (k', v') :: tablePut d rest k v

/-- The canonical form: keys strictly rising, and no entry equal to the default. -/
def tableWf {α : Type} [DecidableEq α] (d : α) : List (Nat × α) → Bool
  | [] => true
  | (k, v) :: rest => decide (v ≠ d) && rest.all (fun e => decide (k < e.1)) && tableWf d rest

/-- A set of addresses, rising: insert one. -/
def setInsert (n : Nat) : List Nat → List Nat
  | [] => [n]
  | m :: rest => if n = m then m :: rest else if n < m then n :: m :: rest else m :: setInsert n rest

/-- A set of addresses is in its canonical form: strictly rising. -/
def setWf : List Nat → Bool
  | [] => true
  | n :: rest => rest.all (fun m => decide (n < m)) && setWf rest

/-! ## Byte memory (20_memory.md) -/

/-- Memory's canonical form: addresses strictly rising, no listed byte equal to 0, which is what
an unlisted address reads as (the loader's `mem[*] <- 0`, R400). -/
def Memory.wf (m : List Host.Cell) : Bool := tableWf 0#8 m

/-- The byte at an address; an unlisted one reads as 0 (R400; log 13). -/
def memByte (m : List Host.Cell) (a : Nat) : Byte := tableGet 0#8 m a

/-- Write one byte. -/
def memPutByte (m : List Host.Cell) (a : Nat) (v : Byte) : List Host.Cell := tablePut 0#8 m a v

/-- The byte of the state's memory at an address. -/
def State.readByte (s : State) (a : Nat) : Byte := memByte s.mem a

/-- The access widths (R66). -/
inductive Width where
  | byte
  | half
  | word
  deriving DecidableEq, Repr

/-- The number of bytes of a width: 1, 2 or 4 (R66). -/
def Width.bytes : Width → Nat
  | .byte => 1
  | .half => 2
  | .word => 4

/-- The `n` bytes from an address, little-endian, zero-extended (R60), for bytes that exist. -/
def memValue (m : List Host.Cell) (a : Nat) : Width → Word
  | .byte => (memByte m a).zeroExtend 32
  | .half => (memByte m (a + 1) ++ memByte m a).zeroExtend 32
  | .word => memByte m (a + 3) ++ memByte m (a + 2) ++ memByte m (a + 1) ++ memByte m a

/-- The access lies within the capacity; the check is in unbounded integers (R60, R61). -/
def inBounds (capacity : Nat) (addr : Word) (n : Width) : Bool :=
  decide (addr.toNat + n.bytes ≤ capacity)

/-- `MemRead(addr, n)` (R60). -/
def memRead (capacity : Nat) (m : List Host.Cell) (addr : Word) (n : Width) : Except Fault Word :=
  if inBounds capacity addr n then .ok (memValue m addr.toNat n) else .error (.outOfBounds addr)

/-- Write a list of bytes at rising addresses. -/
def memPutBytes (m : List Host.Cell) (a : Nat) : List Byte → List Host.Cell
  | [] => m
  | b :: bs => memPutBytes (memPutByte m a b) (a + 1) bs

/-- The low bytes of a word that a width stores, lowest first (R61). -/
def storeBytes (v : Word) (n : Width) : List Byte := (wordBytes v).take n.bytes

/-- The byte addresses an access of a width covers (R61). -/
def accessAddrs (addr : Word) : Width → List Nat
  | .byte => [addr.toNat]
  | .half => [addr.toNat, addr.toNat + 1]
  | .word => [addr.toNat, addr.toNat + 1, addr.toNat + 2, addr.toNat + 3]

/-- `MemWrite(addr, n, v)` (R61); what joins winDirty is `accessAddrs addr n`. -/
def memWrite (capacity : Nat) (m : List Host.Cell) (addr : Word) (n : Width) (v : Word) :
    Except Fault (List Host.Cell) :=
  if inBounds capacity addr n then .ok (memPutBytes m addr.toNat (storeBytes v n))
  else .error (.outOfBounds addr)

/-- A load's widening (R62): the low bytes sign-extended when `signExtend` is requested. -/
def widen (v : Word) (n : Width) (signExtend : Bool) : Word :=
  match n, signExtend with
  | .byte, true => (v.extractLsb' 0 8).signExtend 32
  | .half, true => (v.extractLsb' 0 16).signExtend 32
  | _, _ => v

/-! ## General registers (10_state.md R21, R22) -/

/-- Read a register; `x[0]` reads as 0 at all times (R22). -/
def State.readReg (s : State) (r : RegIdx) : Word :=
  if r = 0 then 0 else s.regs[r.toNat]

/-- Write a register; a write to `x[0]` has no effect (R22). -/
def State.writeReg (s : State) (r : RegIdx) (v : Word) : State :=
  if r = 0 then s else { s with regs := s.regs.set r.toNat v }

/-! ## Clock counters by stage (R32) -/

/-- The counter of a stage. -/
def StageCounters.get (c : StageCounters) : Stage → Nat
  | .ifetch => c.ifetch
  | .id => c.id
  | .ex => c.ex
  | .mem => c.mem
  | .wb => c.wb

/-- Add to the counter of a stage. -/
def StageCounters.add (c : StageCounters) (s : Stage) (n : Nat) : StageCounters :=
  match s with
  | .ifetch => { c with ifetch := c.ifetch + n }
  | .id => { c with id := c.id + n }
  | .ex => { c with ex := c.ex + n }
  | .mem => { c with mem := c.mem + n }
  | .wb => { c with wb := c.wb + n }

/-- `isStalled(s)` (50_clock.md R222). -/
def State.isStalled (s : State) (p : Stage) : Bool := decide (0 < s.clock.stall.get p)

/-- `isDeferred(s)` (R222). -/
def State.isDeferred (s : State) (p : Stage) : Bool := decide (0 < s.clock.defer.get p)

/-- `memoryIdle()` (R223). -/
def State.memoryIdle (s : State) : Bool := s.clock.memBusy == 0

/-- `run(s)` (53_pipeline_cycle.md R293). -/
def State.runs (s : State) : Stage → Bool
  | .ifetch => !s.isStalled .ifetch && !s.run.halting
  | .id => !s.isStalled .id && !s.run.halting
  | .ex => !s.isStalled .ex && !s.run.halting
  | .mem => !s.isStalled .mem
  | .wb => !s.isStalled .wb

/-! ## Presenting an instruction to `exec` -/

/-- The state with a stage named as the one presenting its instruction (log 4). -/
def State.inPhase (s : State) (p : Phase) : State := { s with wires.phase := p }

/-- A meaning from its four stage parts (log 4): every stage part is defined, so every meaning
answers a next state. -/
def byStage (s : State) (id ex mem wb : State → State) : Host.Outcome State Fault Refusal :=
  match s.wires.phase with
  | .id => .next (id s)
  | .ex => .next (ex s)
  | .mem => .next (mem s)
  | .wb => .next (wb s)

/-! ## Taking a fault (60_exceptions.md) -/

/-- The HALT record, the one decode gives for HALT_WORD (R305; its raw fields DEDUCED, log 6). -/
def State.haltRecord (s : State) : Decoded := Instr.halt.record s.cfg.haltWord

/-- EX takes a fault: the latch goes on as a HALT that carries it, so that older instructions
complete, and EX asserts `exHalt` (R305, R372). -/
def raiseInEx (f : Fault) (s : State) : State :=
  { s with
    pipe.exMem := { s.pipe.curEx with inst := s.haltRecord, fault := some f }
    wires.exHalt := true }

/-- The run ends in this cycle with a fault (R308, R374, R376). -/
def endRun (f : Fault) (s : State) : State :=
  { s with run.done := true, run.faulted := some f }

/-- WB has retired a HALT record: the run ends, with the fault it carries if any (R321). There is
no return from it (R381). -/
def retireHalt (f : Option Fault) (s : State) : State :=
  { s with run.done := true, run.faulted := f }

end Sys2Proof.Machine
end

