-- ==== Sys2Proof/Machine/Forwarding.lean ====
section
/-! DEFINITION. The forwarding network (52_forwarding.md R270 to R276). -/

namespace Sys2Proof.Machine

/-- `lookup(r)`: the visible slots only, in the order BYPASS_PRIORITY gives (R270, R271). -/
def FwTable.lookup (t : FwTable) (p : BypassPriority) (r : RegIdx) : Option Word :=
  if r = 0 then none
  else
    match p with
    | .exFirst =>
      if t.visEx.reg = r then some t.visEx.val
      else if t.visMem.reg = r then some t.visMem.val
      else none
    | .memFirst =>
      if t.visMem.reg = r then some t.visMem.val
      else if t.visEx.reg = r then some t.visEx.val
      else none

/-- `publish(r, v, EX)` (R272). -/
def FwTable.publishEx (t : FwTable) (r : RegIdx) (v : Word) : FwTable :=
  if r = 0 then t else { t with pendEx := ⟨r, v⟩ }

/-- `publish(r, v, MEM)` (R272). -/
def FwTable.publishMem (t : FwTable) (r : RegIdx) (v : Word) : FwTable :=
  if r = 0 then t else { t with pendMem := ⟨r, v⟩ }

/-- `advance(exStalled, memStalled)` (R273): a pending slot is copied whole, empty or not. -/
def FwTable.advance (t : FwTable) (exStalled memStalled : Bool) : FwTable where
  visEx := if exStalled then t.visEx else t.pendEx
  pendEx := .empty
  visMem := if memStalled then t.visMem else t.pendMem
  pendMem := .empty

/-- `fwReset()` (R275). -/
def FwTable.cleared : FwTable := ⟨.empty, .empty, .empty, .empty⟩

/-- Step 2b (R274, R311): only when memory is idle, with the stall status of step 2. -/
def forwardStep (s : State) : State :=
  if s.memoryIdle then { s with fw := s.fw.advance (s.isStalled .ex) (s.isStalled .mem) } else s

end Sys2Proof.Machine
end

