-- ==== Sys2Proof/Machine/Operands.lean ====
section
/-! DEFINITION. The operand read of ID (53_pipeline_cycle.md R302): the register file, overridden
by a forwarded value under the FORWARD policy. -/

namespace Sys2Proof.Machine

/-- `operand(r)` (R302, R276). The register file read here is x': the pipeline presents ID with a
state in which WB's write of the same cycle is done (`decodeBody`, D27). -/
def State.operand (s : State) (r : RegIdx) : Word :=
  if r = 0 then 0
  else
    match s.cfg.hazardPolicy with
    | .forward => (s.fw.lookup s.cfg.bypassPriority r).getD (s.readReg r)
    | .stall => s.readReg r

end Sys2Proof.Machine
end

