-- ==== Sys2Proof/Machine/Stages.lean ====
section
/-! DEFINITION. What an instruction does in each stage, shared by the meanings: the parts of the
ID, EX, MEM and WB bodies (53_pipeline_cycle.md R302 to R310). Each writes only its own stage's state (R294). -/

namespace Sys2Proof.Machine

/-! ## ID -/

/-- ID of a decoded instruction: the record, both operands, out cleared (R302). -/
def idDecode (i : Instr) (s : State) : State :=
  let d := i.record s.pipe.curId.word
  { s with
    pipe.idEx :=
      { s.pipe.curId with inst := d, a := s.operand d.rs1, b := s.operand d.rs2, out := 0 } }

/-- ID asserts the jump signal, on every decode (R304). -/
def assertJump (target : Word) (s : State) : State := { s with wires.idJump := some target }

/-- ID asserts the branch signal, on a fresh decode only (R303, R304). -/
def assertBranch (target : Word) (s : State) : State :=
  if s.wires.idFresh then { s with wires.idBranch := some target } else s

/-- ID of JAL (R163, R304). -/
def idJal (i : Instr) (imm : Word) (s : State) : State :=
  assertJump (s.pipe.curId.pc + imm) (idDecode i s)

/-- ID of JALR: the target is formed from the operand read in this decode, bit 0 cleared (R164,
R304). -/
def idJalr (i : Instr) (rs1 : RegIdx) (imm : Word) (s : State) : State :=
  assertJump ((s.operand rs1 + imm) &&& 0xFFFFFFFE#32) (idDecode i s)

/-- ID of a conditional branch (R165, R304). -/
def idBranch (i : Instr) (imm : Word) (s : State) : State :=
  assertBranch (s.pipe.curId.pc + imm) (idDecode i s)

/-! ## EX -/

/-- EX hands its latch on with the result in `out` (R306). -/
def exPass (out : Word) (s : State) : State :=
  { s with pipe.exMem := { s.pipe.curEx with out := out } }

/-- EX of an instruction whose result is known in EX: the result, published for `rd` (R306,
R272). -/
def exResult (rd : RegIdx) (out : Word) (s : State) : State :=
  { exPass out s with fw := s.fw.publishEx rd out }

/-- EX of a load or store: the effective address through the ALU, and the memory-access request
(R190, R307). A load does not publish (R191), a store has no rd (R192). -/
def exAddress (imm : Word) (s : State) : State :=
  { exPass (alu s.pipe.curEx.a imm .add) s with wires.memReq := true }

/-- EX of a conditional branch (R165, R307): the outcome, the actual target and the resolution
signal. A branch that executes with no prediction pending is a ControllerInvariant fault, and EX
writes nothing (R307, R376; log 9). -/
def exBranch (imm : Word) (taken : Bool) (s : State) : State :=
  if s.pred.pValid then
    { exPass (ofBool taken) s with
      wires.exBranch := some (taken, s.pipe.curEx.pc + if taken then imm else 4#32) }
  else { s with wires.exStop := some (.controllerInvariant s.pipe.curEx.pc) }

/-- EX of HALT (R305, R211). -/
def exHalt (s : State) : State :=
  { s with pipe.exMem := s.pipe.curEx, wires.exHalt := true }

/-! ## MEM -/

/-- MEM of an instruction without a data access: the latch unchanged (R308). -/
def memPass (s : State) : State := { s with pipe.memWb := s.pipe.curMem }

/-- MEM of a load (R191, R308, R309): read, widen, publish; beyond capacity it writes nothing and
raises OutOfBounds (R374). -/
def memLoad (rd : RegIdx) (n : Width) (signExtend : Bool) (s : State) : State :=
  match memRead s.cfg.memCapacity s.mem s.pipe.curMem.out n with
  | .ok v =>
    let out := widen v n signExtend
    { s with pipe.memWb := { s.pipe.curMem with out := out }, fw := s.fw.publishMem rd out }
  | .error f => { s with wires.memStop := some f }

/-- MEM of a store (R192, R308): write the low bytes of B; beyond capacity it writes nothing and
raises OutOfBounds (R374). -/
def memStore (n : Width) (s : State) : State :=
  match memWrite s.cfg.memCapacity s.mem s.pipe.curMem.out n s.pipe.curMem.b with
  | .ok m =>
    { s with mem := m, pipe.memWb := s.pipe.curMem,
             wires.stored := accessAddrs s.pipe.curMem.out n }
  | .error f => { s with wires.memStop := some f }

/-! ## WB -/

/-- WB of an instruction with a destination (R310). -/
def wbWrite (rd : RegIdx) (s : State) : State := s.writeReg rd s.pipe.curWb.out

/-- WB of an instruction without a destination: rd is 0, nothing is written (R310, R85). -/
def wbNothing (s : State) : State := s

/-- WB of HALT: it asserts the halt signal with its latch's fault (R310). -/
def wbHalt (s : State) : State := { s with wires.wbHalt := some s.pipe.curWb.fault }

/-! ## The families -/

/-- An instruction whose result EX computes: every ALU-class instruction (R123). -/
def aluClass (i : Instr) (rd : RegIdx) (out : State → Word) (s : State) :
    Host.Outcome State Fault Refusal :=
  byStage s (idDecode i) (fun s => exResult rd (out s) s) memPass (wbWrite rd)

/-- A conditional branch (R165). -/
def branchClass (i : Instr) (imm : Word) (cond : State → Bool) (s : State) :
    Host.Outcome State Fault Refusal :=
  byStage s (idBranch i imm) (fun s => exBranch imm (cond s) s) memPass wbNothing

/-- A load (R190, R191). -/
def loadClass (i : Instr) (rd : RegIdx) (imm : Word) (n : Width) (signExtend : Bool) (s : State) :
    Host.Outcome State Fault Refusal :=
  byStage s (idDecode i) (exAddress imm) (memLoad rd n signExtend) (wbWrite rd)

/-- A store (R190, R192). -/
def storeClass (i : Instr) (imm : Word) (n : Width) (s : State) :
    Host.Outcome State Fault Refusal :=
  byStage s (idDecode i) (exAddress imm) (memStore n) wbNothing

end Sys2Proof.Machine
end

