-- ==== Sys2Proof/Machine/AluImm.lean ====
section
/-! DEFINITION. The upper-immediate and register-immediate instructions (40_alu_ops.md R124 to R134).
Each is ALU class (R123): the stage parts differ only in the value EX computes. -/

namespace Sys2Proof.Machine

/-- LUI (R124): the immediate. -/
def execLui (rd : RegIdx) (imm : Word) (s : State) :
    Host.Outcome State Fault Refusal :=
  aluClass (.lui rd imm) rd (fun _ => imm) s

/-- AUIPC (R125): the instruction's own pc plus the immediate. -/
def execAuipc (rd : RegIdx) (imm : Word) (s : State) :
    Host.Outcome State Fault Refusal :=
  aluClass (.auipc rd imm) rd (fun s => s.pipe.curEx.pc + imm) s

/-- ADDI (R126). -/
def execAddi (rd rs1 : RegIdx) (imm : Word) (s : State) :
    Host.Outcome State Fault Refusal :=
  aluClass (.addi rd rs1 imm) rd (fun s => alu s.pipe.curEx.a imm .add) s

/-- SLTI (R127). -/
def execSlti (rd rs1 : RegIdx) (imm : Word) (s : State) :
    Host.Outcome State Fault Refusal :=
  aluClass (.slti rd rs1 imm) rd (fun s => ofBool (lts s.cfg.signedCmp s.pipe.curEx.a imm)) s

/-- SLTIU (R128): the sign-extended immediate compared unsigned. -/
def execSltiu (rd rs1 : RegIdx) (imm : Word) (s : State) :
    Host.Outcome State Fault Refusal :=
  aluClass (.sltiu rd rs1 imm) rd (fun s => ofBool (ltu s.pipe.curEx.a imm)) s

/-- XORI (R129). -/
def execXori (rd rs1 : RegIdx) (imm : Word) (s : State) :
    Host.Outcome State Fault Refusal :=
  aluClass (.xori rd rs1 imm) rd (fun s => alu s.pipe.curEx.a imm .xor) s

/-- ORI (R130). -/
def execOri (rd rs1 : RegIdx) (imm : Word) (s : State) :
    Host.Outcome State Fault Refusal :=
  aluClass (.ori rd rs1 imm) rd (fun s => alu s.pipe.curEx.a imm .or) s

/-- ANDI (R131). -/
def execAndi (rd rs1 : RegIdx) (imm : Word) (s : State) :
    Host.Outcome State Fault Refusal :=
  aluClass (.andi rd rs1 imm) rd (fun s => alu s.pipe.curEx.a imm .and) s

/-- SLLI (R132). -/
def execSlli (rd rs1 : RegIdx) (shamt : BitVec 5) (s : State) :
    Host.Outcome State Fault Refusal :=
  aluClass (.slli rd rs1 shamt) rd (fun s => alu s.pipe.curEx.a (shamt.zeroExtend 32) .sll) s

/-- SRLI (R133): a logical shift. -/
def execSrli (rd rs1 : RegIdx) (shamt : BitVec 5) (s : State) :
    Host.Outcome State Fault Refusal :=
  aluClass (.srli rd rs1 shamt) rd (fun s => alu s.pipe.curEx.a (shamt.zeroExtend 32) .sr false) s

/-- SRAI (R134): an arithmetic shift. -/
def execSrai (rd rs1 : RegIdx) (shamt : BitVec 5) (s : State) :
    Host.Outcome State Fault Refusal :=
  aluClass (.srai rd rs1 shamt) rd (fun s => alu s.pipe.curEx.a (shamt.zeroExtend 32) .sr true) s

end Sys2Proof.Machine
end

