-- ==== Sys2Proof/Machine/AluReg.lean ====
section
/-! DEFINITION. The register-register instructions (40_alu_ops.md R135 to R144).
Each is ALU class (R123): the stage parts differ only in the value EX computes. -/

namespace Sys2Proof.Machine

/-- ADD (R135). -/
def execAdd (rd rs1 rs2 : RegIdx) (s : State) :
    Host.Outcome State Fault Refusal :=
  aluClass (.add rd rs1 rs2) rd (fun s => alu s.pipe.curEx.a s.pipe.curEx.b .add) s

/-- SUB (R136). -/
def execSub (rd rs1 rs2 : RegIdx) (s : State) :
    Host.Outcome State Fault Refusal :=
  aluClass (.sub rd rs1 rs2) rd (fun s => alu s.pipe.curEx.a s.pipe.curEx.b .sub) s

/-- SLL (R137). -/
def execSll (rd rs1 rs2 : RegIdx) (s : State) :
    Host.Outcome State Fault Refusal :=
  aluClass (.sll rd rs1 rs2) rd (fun s => alu s.pipe.curEx.a s.pipe.curEx.b .sll) s

/-- SLT (R138). -/
def execSlt (rd rs1 rs2 : RegIdx) (s : State) :
    Host.Outcome State Fault Refusal :=
  aluClass (.slt rd rs1 rs2) rd (fun s => ofBool (lts s.cfg.signedCmp s.pipe.curEx.a s.pipe.curEx.b)) s

/-- SLTU (R139). -/
def execSltu (rd rs1 rs2 : RegIdx) (s : State) :
    Host.Outcome State Fault Refusal :=
  aluClass (.sltu rd rs1 rs2) rd (fun s => ofBool (ltu s.pipe.curEx.a s.pipe.curEx.b)) s

/-- XOR (R140). -/
def execXor (rd rs1 rs2 : RegIdx) (s : State) :
    Host.Outcome State Fault Refusal :=
  aluClass (.xor rd rs1 rs2) rd (fun s => alu s.pipe.curEx.a s.pipe.curEx.b .xor) s

/-- SRL (R141): a logical shift. -/
def execSrl (rd rs1 rs2 : RegIdx) (s : State) :
    Host.Outcome State Fault Refusal :=
  aluClass (.srl rd rs1 rs2) rd (fun s => alu s.pipe.curEx.a s.pipe.curEx.b .sr false) s

/-- SRA (R142): an arithmetic shift. -/
def execSra (rd rs1 rs2 : RegIdx) (s : State) :
    Host.Outcome State Fault Refusal :=
  aluClass (.sra rd rs1 rs2) rd (fun s => alu s.pipe.curEx.a s.pipe.curEx.b .sr true) s

/-- OR (R143). -/
def execOr (rd rs1 rs2 : RegIdx) (s : State) :
    Host.Outcome State Fault Refusal :=
  aluClass (.or rd rs1 rs2) rd (fun s => alu s.pipe.curEx.a s.pipe.curEx.b .or) s

/-- AND (R144). -/
def execAnd (rd rs1 rs2 : RegIdx) (s : State) :
    Host.Outcome State Fault Refusal :=
  aluClass (.and rd rs1 rs2) rd (fun s => alu s.pipe.curEx.a s.pipe.curEx.b .and) s

end Sys2Proof.Machine
end

