-- ==== Sys2Proof/Machine/Control.lean ====
section
/-! DEFINITION. The control-transfer instructions (41_control_transfer.md). -/

namespace Sys2Proof.Machine

/-- JAL (R163): ID asserts the jump to pc + imm, EX computes and publishes the link pc + 4. -/
def execJal (rd : RegIdx) (imm : Word) (s : State) :
    Host.Outcome State Fault Refusal :=
  byStage s (idJal (.jal rd imm) imm) (fun s => exResult rd (s.pipe.curEx.pc + 4#32) s) memPass
    (wbWrite rd)

/-- JALR (R164): ID asserts the jump to (A + imm) with bit 0 cleared, EX computes and publishes the
link pc + 4. -/
def execJalr (rd rs1 : RegIdx) (imm : Word) (s : State) :
    Host.Outcome State Fault Refusal :=
  byStage s (idJalr (.jalr rd rs1 imm) rs1 imm)
    (fun s => exResult rd (s.pipe.curEx.pc + 4#32) s) memPass (wbWrite rd)

/-- BEQ (R166). -/
def execBeq (rs1 rs2 : RegIdx) (imm : Word) (s : State) :
    Host.Outcome State Fault Refusal :=
  branchClass (.beq rs1 rs2 imm) imm (fun s => aluEq s.pipe.curEx.a s.pipe.curEx.b) s

/-- BNE (R167). -/
def execBne (rs1 rs2 : RegIdx) (imm : Word) (s : State) :
    Host.Outcome State Fault Refusal :=
  branchClass (.bne rs1 rs2 imm) imm (fun s => !aluEq s.pipe.curEx.a s.pipe.curEx.b) s

/-- BLT (R168). -/
def execBlt (rs1 rs2 : RegIdx) (imm : Word) (s : State) :
    Host.Outcome State Fault Refusal :=
  branchClass (.blt rs1 rs2 imm) imm (fun s => lts s.cfg.signedCmp s.pipe.curEx.a s.pipe.curEx.b) s

/-- BGE (R169). -/
def execBge (rs1 rs2 : RegIdx) (imm : Word) (s : State) :
    Host.Outcome State Fault Refusal :=
  branchClass (.bge rs1 rs2 imm) imm (fun s => !lts s.cfg.signedCmp s.pipe.curEx.a s.pipe.curEx.b) s

/-- BLTU (R170). -/
def execBltu (rs1 rs2 : RegIdx) (imm : Word) (s : State) :
    Host.Outcome State Fault Refusal :=
  branchClass (.bltu rs1 rs2 imm) imm (fun s => ltu s.pipe.curEx.a s.pipe.curEx.b) s

/-- BGEU (R171). -/
def execBgeu (rs1 rs2 : RegIdx) (imm : Word) (s : State) :
    Host.Outcome State Fault Refusal :=
  branchClass (.bgeu rs1 rs2 imm) imm (fun s => !ltu s.pipe.curEx.a s.pipe.curEx.b) s

end Sys2Proof.Machine
end

