-- ==== Sys2Proof/Machine/LoadStore.lean ====
section
/-! DEFINITION. The loads and stores (42_load_store.md). -/

namespace Sys2Proof.Machine

/-- LB (R194): one byte, sign-extended. -/
def execLb (rd rs1 : RegIdx) (imm : Word) (s : State) :
    Host.Outcome State Fault Refusal :=
  loadClass (.lb rd rs1 imm) rd imm .byte true s

/-- LH (R195): two bytes, sign-extended. -/
def execLh (rd rs1 : RegIdx) (imm : Word) (s : State) :
    Host.Outcome State Fault Refusal :=
  loadClass (.lh rd rs1 imm) rd imm .half true s

/-- LW (R196): four bytes. -/
def execLw (rd rs1 : RegIdx) (imm : Word) (s : State) :
    Host.Outcome State Fault Refusal :=
  loadClass (.lw rd rs1 imm) rd imm .word false s

/-- LBU (R197): one byte, zero-extended. -/
def execLbu (rd rs1 : RegIdx) (imm : Word) (s : State) :
    Host.Outcome State Fault Refusal :=
  loadClass (.lbu rd rs1 imm) rd imm .byte false s

/-- LHU (R198): two bytes, zero-extended. -/
def execLhu (rd rs1 : RegIdx) (imm : Word) (s : State) :
    Host.Outcome State Fault Refusal :=
  loadClass (.lhu rd rs1 imm) rd imm .half false s

/-- SB (R199): the low byte of B. -/
def execSb (rs1 rs2 : RegIdx) (imm : Word) (s : State) :
    Host.Outcome State Fault Refusal :=
  storeClass (.sb rs1 rs2 imm) imm .byte s

/-- SH (R200): the low two bytes of B. -/
def execSh (rs1 rs2 : RegIdx) (imm : Word) (s : State) :
    Host.Outcome State Fault Refusal :=
  storeClass (.sh rs1 rs2 imm) imm .half s

/-- SW (R201): all of B. -/
def execSw (rs1 rs2 : RegIdx) (imm : Word) (s : State) :
    Host.Outcome State Fault Refusal :=
  storeClass (.sw rs1 rs2 imm) imm .word s

end Sys2Proof.Machine
end

