-- ==== Sys2Proof/Machine/Sentinels.lean ====
section
/-! DEFINITION. The bubble, HALT and ILLEGAL (43_sentinels.md). -/

namespace Sys2Proof.Machine

/-- ID of a bubble or of a latch with a fault tag: the NOP record, both operands 0, the other
fields passed on (R210, R302). -/
def idBubble (s : State) : State :=
  { s with pipe.idEx := { s.pipe.curId with inst := .nop, a := 0, b := 0, out := 0 } }

/-- EX of a bubble: out is 0 and no signal is asserted; rd is 0, so nothing is published (R210,
R306). -/
def exBubble (s : State) : State := exPass 0 s

/-- MEM of a bubble (R210, R308). -/
def memBubble (s : State) : State := memPass s

/-- WB of a bubble (R210, R310). -/
def wbBubble (s : State) : State := wbNothing s

/-- HALT (R211): decoded with no operands, EX asserts the halt signal, MEM passes it on, WB asserts
its halt signal. -/
def execHalt (s : State) :
    Host.Outcome State Fault Refusal :=
  byStage s (idDecode .halt) exHalt memPass wbHalt

/-- ILLEGAL (R212): no operands; EX raises IllegalInstruction with the instruction's pc, which is
carried on as a HALT record (R305, R373). -/
def execIllegal (word : Word) (s : State) :
    Host.Outcome State Fault Refusal :=
  byStage s (idDecode (.illegal word))
    (fun s => raiseInEx (.illegalInstruction s.pipe.curEx.pc) s) memPass wbNothing

end Sys2Proof.Machine
end

