-- ==== Sys2Proof/Machine/Clock.lean ====
section
/-! DEFINITION. The Clock's operations (50_clock.md R220 to R224). -/

namespace Sys2Proof.Machine

/-- `requestStall(s, n)`: additive (R220). -/
def requestStall (p : Stage) (n : Nat) (s : State) : State :=
  { s with clock.stall := s.clock.stall.add p n }

/-- `requestDefer(s, n)`: additive (R221). -/
def requestDefer (p : Stage) (n : Nat) (s : State) : State :=
  { s with clock.defer := s.clock.defer.add p n }

/-- `setMemoryBusy(n)`: replaces the value (R223). -/
def setMemoryBusy (n : Nat) (s : State) : State := { s with clock.memBusy := n }

/-- Every positive counter less one. -/
def StageCounters.decay (c : StageCounters) : StageCounters :=
  ⟨c.ifetch - 1, c.id - 1, c.ex - 1, c.mem - 1, c.wb - 1⟩

/-- `tick()` (R224): stall counters always, defer counters only when memory was not busy before
this tick (90_conflicts.md C1, D22). -/
def Clock.tick (c : Clock) : Clock where
  stall := c.stall.decay
  defer := if c.memBusy = 0 then c.defer.decay else c.defer
  memBusy := c.memBusy - 1

/-- Step 3 of the cycle (R311). -/
def tickStep (s : State) : State := { s with clock := s.clock.tick }

/-- The memory-stall request (53_pipeline_cycle.md R323). -/
def memoryStall (s : State) : State :=
  requestStall .ifetch 2 (requestStall .id 2 (requestStall .ex 2 (requestStall .mem 2
    (setMemoryBusy Config.memBusyCycles s))))

end Sys2Proof.Machine
end

