-- ==== Sys2Proof/Machine/Hazard.lean ====
section
/-! DEFINITION. The hazard arbiter (54_hazard_arbiter.md R340 to R344). -/

namespace Sys2Proof.Machine

/-- A latch matches a consumer: its destination is not 0 and is one of the consumer's sources
(R341). -/
def hazardMatch (consumer : Decoded) (l : Latch) : Bool :=
  l.inst.rd != 0 && (l.inst.rd == consumer.rs1 || l.inst.rd == consumer.rs2)

/-- `hazard(r)` (R344). -/
def hazard (r : Nat) (s : State) : State :=
  requestDefer .id r (requestStall .id (r - 1) (requestStall .ifetch r (requestStall .ex r
    { s with stats.hazardCount := s.stats.hazardCount + 1 })))

/-- One check of the arbiter. -/
def hazardIf (p : Bool) (r : Nat) (s : State) : State := if p then hazard r s else s

/-- The arbiter (R340): the STALL policy's three cumulative checks (R342), or the FORWARD policy's
two (R343). It reads the latches as they stand in management. -/
def arbitrate (s : State) : State :=
  let i := s.pipe.idEx.inst
  match s.cfg.hazardPolicy with
  | .stall =>
    hazardIf (hazardMatch i s.pipe.exMem) 3 (hazardIf (hazardMatch i s.pipe.memWb) 2
      (hazardIf (hazardMatch i s.pipe.curWb) 1 s))
  | .forward =>
    hazardIf (hazardMatch i s.pipe.memWb && s.pipe.memWb.inst.kind.isLoad) 1
      (hazardIf (hazardMatch i s.pipe.exMem) 1 s)

end Sys2Proof.Machine
end

