-- ==== Sys2Proof/Machine/Predictor.lean ====
section
/-! DEFINITION. The branch predictor (51_branch_predictor.md R241 to R246). -/

namespace Sys2Proof.Machine

/-- `addrIdx(pc)`: IDX_BITS bits of the pc from bit PC_INDEX_LSB (R241). Above 30 IDX_BITS, which R6
allows, the slice names pc bits that do not exist: they count as 0 (DESIGN CHOICE, log 19). -/
def addrIdx (c : Config) (pc : Word) : Nat := pc.toNat / 2 ^ Config.pcIndexLsb % 2 ^ c.idxBits

/-- The prediction of a counter: its top bit (R242). -/
def counterTaken (c : BitVec 2) : Bool := c.msb

/-- The transition table (R243). -/
def counterNext (c : BitVec 2) (taken : Bool) : BitVec 2 :=
  match c.toNat, taken with
  | 0, false => 0#2
  | 0, true => 1#2
  | 1, false => 0#2
  | 1, true => 2#2
  | 2, false => 1#2
  | 2, true => 3#2
  | _, false => 2#2
  | _, true => 3#2

/-- A BHT entry; an unlisted one is 0, strongly not taken (R41). -/
def Predictor.counter (p : Predictor) (i : Nat) : BitVec 2 := tableGet 0#2 p.bht i

/-- A PHT entry; an unlisted one is 0 (R41). -/
def Predictor.history (p : Predictor) (i : Nat) : Nat := tableGet 0 p.pht i

/-- The number of BHT entries of a mode (R34). R34 gives none for the two constant modes, which select
index 0 and train nothing (R245, R246): 2^IDX_BITS there (DESIGN CHOICE, log 23). It bounds indexes in
`PredictorInv` only. -/
def bhtSize (c : Config) : Nat :=
  match c.predictor with
  | .twoLevel => 2 ^ (c.idxBits + c.histLen)
  | _ => 2 ^ c.idxBits

/-- The counter index `pCtr` for a pc (R245): in two-level mode the address index in the high bits
and the history in the HIST_LEN low bits. -/
def selectCounter (c : Config) (p : Predictor) (pc : Word) : Nat :=
  let a := addrIdx c pc
  match c.predictor with
  | .alwaysTaken => 0
  | .alwaysNotTaken => 0
  | .oneLevel => a
  | .twoLevel => a * 2 ^ c.histLen + p.history a

/-- The decision for a pc (R245). -/
def prediction (c : Config) (p : Predictor) (pc : Word) : Bool :=
  match c.predictor with
  | .alwaysTaken => true
  | .alwaysNotTaken => false
  | .oneLevel => counterTaken (p.counter (selectCounter c p pc))
  | .twoLevel => counterTaken (p.counter (selectCounter c p pc))

/-- `predict(pc)` (R244, R245): the decision and the pending marker; none when one is pending
already, a broken protocol. -/
def predict (c : Config) (pc : Word) (p : Predictor) : Option (Bool × Predictor) :=
  if p.pValid then none
  else
    let taken := prediction c p pc
    some (taken,
      { p with pValid := true, pAddr := addrIdx c pc, pCtr := selectCounter c p pc,
               pPred := taken })

/-- A history with the newest outcome shifted into bit 0 (R246). -/
def shiftHistory (c : Config) (h : Nat) (taken : Bool) : Nat :=
  (h * 2 + if taken then 1 else 0) % 2 ^ c.histLen

/-- `update(taken)` (R246); none when none is pending, a broken protocol. -/
def update (c : Config) (taken : Bool) (p : Predictor) : Option Predictor :=
  if p.pValid then
    let bht' := tablePut 0#2 p.bht p.pCtr (counterNext (p.counter p.pCtr) taken)
    some (match c.predictor with
      | .alwaysTaken => { p with pValid := false }
      | .alwaysNotTaken => { p with pValid := false }
      | .oneLevel => { p with pValid := false, bht := bht' }
      | .twoLevel =>
        { p with pValid := false, bht := bht',
                 pht := tablePut 0 p.pht p.pAddr (shiftHistory c (p.history p.pAddr) taken) })
  else none

end Sys2Proof.Machine
end

