-- ==== Sys2Proof/Machine/Window.lean ====
section
/-! DEFINITION. The instruction window (20_memory.md R71 to R73). -/

namespace Sys2Proof.Machine

/-- One word of a block being loaded: absent where it extends beyond capacity, in unbounded
integers (R71). -/
def blockWord (capacity : Nat) (m : List Host.Cell) (a : Nat) : Option Word :=
  if a + 4 ≤ capacity then some (memValue m a .word) else none

/-- The block loaded from an address (R71). -/
def loadBlock (s : State) : Window where
  valid := true
  base := s.pc
  words := (List.range s.cfg.windowWords).map
    (fun k => blockWord s.cfg.memCapacity s.mem (s.pc.toNat + 4 * k))
  cursor := 0
  dirty := []

/-- The window a fetch reads: the one held, or a fresh block when it was reset or is used up
(R71). -/
def fetchWindow (s : State) : Window :=
  if !s.win.valid || s.win.cursor == s.cfg.windowWords then loadBlock s else s.win

/-- The word at the cursor of a window: absent is OutOfBounds, a word with a byte stored to since
the block was loaded is StaleFetch, in that order (R71, R73, R378). A fault's address is 32 bits wide (R370), so
`winBase + 4*winCursor` is taken modulo 2^32 (DEDUCED, log 22). A cursor beyond the block, which no run reaches,
counts as absent (DESIGN CHOICE, log 10). A word already fetched is not checked again (log 16), and a redirection
reloads the block, so that of a program that stores into it the outcome depends on the prediction (DEDUCED, log
21). -/
def windowFetch (w : Window) : Except Fault Word :=
  let a := w.base.toNat + 4 * w.cursor
  match w.words.getD w.cursor none with
  | none => .error (.outOfBounds (BitVec.ofNat 32 a))
  | some v =>
    if [a, a + 1, a + 2, a + 3].any (fun x => w.dirty.contains x) then
      .error (.staleFetch (BitVec.ofNat 32 a))
    else .ok v

/-- `fetchWord(pc)` (R71): the window afterwards, and the word or the fault. -/
def fetchWord (s : State) : Window × Except Fault Word :=
  let w := fetchWindow s
  ({ w with cursor := w.cursor + 1 }, windowFetch w)

/-- `windowReset()` (R72). -/
def windowReset (s : State) : State := { s with win.valid := false }

/-- The bytes stored in this cycle join winDirty (R61, R294). -/
def joinStored (s : State) : State :=
  { s with win.dirty := s.wires.stored.foldl (fun d a => setInsert a d) s.win.dirty }

end Sys2Proof.Machine
end

