-- ==== Sys2Proof/Machine/Pipeline.lean ====
section
/-! DEFINITION. The clock cycle (53_pipeline_cycle.md R290): propagation, the five stage bodies,
the forwarding advance, the tick and the management step. -/

namespace Sys2Proof.Machine

/-- Go on from a next state; a fault or a refusal stops. -/
def andThen (o : Host.Outcome State Fault Refusal)
    (f : State → Host.Outcome State Fault Refusal) : Host.Outcome State Fault Refusal :=
  match o with
  | .next s => f s
  | .fault r => .fault r
  | .refused r => .refused r

/-! ## Step 1: latch propagation (R292) -/

/-- Copy a stage's feed latch into its working latch, and clear the feed latch unless the stage is
stalled (R31, R292). -/
def Latches.take (l : Latches) (stalled : Bool) : Stage → Latches
  | .ifetch => l
  | .id => { l with curId := l.ifId, ifId := if stalled then l.ifId else .empty }
  | .ex => { l with curEx := l.idEx, idEx := if stalled then l.idEx else .empty }
  | .mem => { l with curMem := l.exMem, exMem := if stalled then l.exMem else .empty }
  | .wb => { l with curWb := l.memWb, memWb := if stalled then l.memWb else .empty }

/-- Propagation into one stage; a deferred stage keeps both latches (R292). -/
def propagateStage (p : Stage) (s : State) : State :=
  if s.isDeferred p then s else { s with pipe := s.pipe.take (s.isStalled p) p }

/-- Step 1, with `idFresh` (R303) and run(ID) noted for the rest of the cycle; the counters do not
change before step 3 (R293). -/
def propagate (s : State) : State :=
  let t := propagateStage .id (propagateStage .ex (propagateStage .mem (propagateStage .wb s)))
  { t with wires.idFresh := !s.isDeferred .id, wires.idRan := s.runs .id }

/-! ## Step 2: the stage bodies (R301 to R310) -/

/-- IF (R301). -/
def fetchBody (s : State) : State :=
  if s.runs .ifetch then
    let l : Latch := { Latch.empty with pc := s.pc, valid := true }
    if s.pc.toNat % 4 ≠ 0 then
      { s with pipe.ifId := { l with fault := some (.misalignedFetch s.pc) }, pc := s.pc + 4#32 }
    else
      match fetchWord s with
      | (w, .ok v) => { s with pipe.ifId := { l with word := v }, win := w, pc := s.pc + 4#32 }
      | (w, .error f) =>
        { s with pipe.ifId := { l with fault := some f }, win := w, pc := s.pc + 4#32 }
  else s

/-- ID (R302): a valid, untagged latch is decoded and its instruction acts; anything else is a
bubble. -/
def decodeBody (s : State) : Host.Outcome State Fault Refusal :=
  if s.runs .id then
    if s.pipe.curId.valid && s.pipe.curId.fault.isNone then
      exec (decodeWord s.cfg.haltWord s.pipe.curId.word) (s.inPhase .id)
    else .next (idBubble s)
  else .next s

/-- EX (R305, R306): a fault tag is raised, an instruction acts, a bubble passes. -/
def executeBody (s : State) : Host.Outcome State Fault Refusal :=
  if s.runs .ex then
    match s.pipe.curEx.fault with
    | some f => .next (raiseInEx f s)
    | none =>
      match s.pipe.curEx.inst.instr s.pipe.curEx.word with
      | some i => exec i (s.inPhase .ex)
      | none => .next (exBubble s)
  else .next s

/-- MEM (R308). -/
def memoryBody (s : State) : Host.Outcome State Fault Refusal :=
  if s.runs .mem then
    match s.pipe.curMem.inst.instr s.pipe.curMem.word with
    | some i => exec i (s.inPhase .mem)
    | none => .next (memBubble s)
  else .next s

/-- WB (R310). -/
def writeBackBody (s : State) : Host.Outcome State Fault Refusal :=
  if s.runs .wb then
    match s.pipe.curWb.inst.instr s.pipe.curWb.word with
    | some i => exec i (s.inPhase .wb)
    | none => .next (wbBubble s)
  else .next s

/-- What the five bodies answer, each from the state after propagation. -/
structure Bodies where
  ifetch : State
  id : State
  ex : State
  mem : State
  wb : State
  deriving DecidableEq, Repr

/-- Commit the state one stage owns, as R294's table lists it, into `acc`. -/
def commitStage (o : Bodies) (acc : State) : Stage → State
  | .ifetch => { acc with pipe.ifId := o.ifetch.pipe.ifId, pc := o.ifetch.pc, win := o.ifetch.win }
  | .id =>
    { acc with
      pipe.idEx := o.id.pipe.idEx
      wires.idJump := o.id.wires.idJump
      wires.idBranch := o.id.wires.idBranch }
  | .ex =>
    { acc with
      pipe.exMem := o.ex.pipe.exMem
      fw.pendEx := o.ex.fw.pendEx
      wires.exBranch := o.ex.wires.exBranch
      wires.exHalt := o.ex.wires.exHalt
      wires.memReq := o.ex.wires.memReq
      wires.exStop := o.ex.wires.exStop }
  | .mem =>
    { acc with
      pipe.memWb := o.mem.pipe.memWb
      mem := o.mem.mem
      fw.pendMem := o.mem.fw.pendMem
      wires.memStop := o.mem.wires.memStop
      wires.stored := o.mem.wires.stored }
  | .wb => { acc with regs := o.wb.regs, wires.wbHalt := o.wb.wires.wbHalt }

/-- Commit the stages in an order. Every order gives the same state (R291). -/
def commitIn (order : List Stage) (o : Bodies) (s : State) : State :=
  order.foldl (commitStage o) s

/-- All writes of step 2 are committed together at its end; the bytes MEM stored then join
winDirty, after IF's reset of it (R291, R294). -/
def commit (o : Bodies) (s : State) : State := joinStored (commitIn Stage.all o s)

/-- Step 2: every body reads the state as it was at its start (R9, R291); ID's register read sees
WB's write of the same cycle (R302, D27). A body that does not answer a next state stops the step, the oldest
instruction's first. -/
def stageBodies (s : State) : Host.Outcome State Fault Refusal :=
  andThen (writeBackBody s) fun w =>
  andThen (memoryBody s) fun m =>
  andThen (executeBody s) fun e =>
  andThen (decodeBody { s with regs := w.regs }) fun d =>
  .next (commit ⟨fetchBody s, d, e, m, w⟩ s)

/-! ## Step 4: management (R320) -/

/-- The halt signal of EX (R322). -/
def haltSignal (s : State) : State :=
  if s.wires.exHalt then { s with run.halting := true } else s

/-- The memory-access request (R323). -/
def memorySignal (s : State) : State := if s.wires.memReq then memoryStall s else s

/-- The branch signal of ID (R327). -/
def branchSignal (s : State) : State :=
  match s.wires.idBranch with
  | none => s
  | some target =>
    { s with
      ctl.delayedSecondBranch := s.ctl.branchInFlight || s.ctl.delayedSecondBranch
      ctl.branchInFlight := true
      ctl.branchTarget := target }

/-- The misprediction flush and redirect (R324, R275). -/
def mispredict (actualTarget : Word) (s : State) : State :=
  windowReset { s with
    stats.misses := s.stats.misses + 1
    pc := actualTarget
    pipe.ifId := .empty
    pipe.curId := .empty
    pipe.idEx := .empty
    ctl.branchInFlight := false
    ctl.delayedSecondBranch := false
    fw := FwTable.cleared }

/-- A correct prediction (R328). -/
def predictHit (s : State) : State :=
  { s with
    stats.hits := s.stats.hits + 1
    ctl.branchInFlight := s.ctl.delayedSecondBranch && s.ctl.branchInFlight
    ctl.delayedSecondBranch := false }

/-- The resolution of the branch in EX (R324, R328): the state, and whether the rest of the
management step is skipped. An update with none pending is a ControllerInvariant fault (R246, R376). -/
def resolve (s : State) : State × Bool :=
  match s.wires.exBranch with
  | none => (s, false)
  | some (taken, actualTarget) =>
    match update s.cfg taken s.pred with
    | none => (endRun (.controllerInvariant s.pipe.curEx.pc) s, true)
    | some p =>
      if taken = s.pred.pPred then (predictHit { s with pred := p }, false)
      else (mispredict actualTarget { s with pred := p }, true)

/-- Redirect the fetch: the next fetch address, the fetched latch cleared, the window reset (R325,
R326). -/
def redirect (target : Word) (s : State) : State :=
  windowReset { s with pc := target, pipe.ifId := .empty }

/-- The predictor consultation (R326), when a branch is in flight and none is pending. -/
def consult (s : State) : State :=
  if s.ctl.branchInFlight then
    match predict s.cfg s.pipe.curId.pc s.pred with
    | none => s
    | some (true, p) => redirect s.ctl.branchTarget { s with pred := p }
    | some (false, p) => { s with pred := p }
  else s

/-- The jump redirect (R325), else the predictor consultation (R326). -/
def redirectFetch (s : State) : State :=
  match s.wires.idJump with
  | some target => redirect target s
  | none => consult s

/-- Hazard arbitration runs last, and only if ID ran (R330). -/
def hazardStep (s : State) : State := if s.wires.idRan then arbitrate s else s

/-- The part of the management step after the halting return (R320). -/
def manageFlow (s : State) : State :=
  match resolve (branchSignal s) with
  | (t, true) => t
  | (t, false) => hazardStep (redirectFetch t)

/-- The management step (R320). -/
def manage (s : State) : State :=
  match s.wires.wbHalt with
  | some f => retireHalt f s
  | none =>
    let t := memorySignal (haltSignal s)
    if t.run.halting then t else manageFlow t

/-! ## The cycle -/

/-- The start of a cycle: it is counted, and no signal is asserted yet (R290). -/
def beginCycle (s : State) : State :=
  { s with stats.cycleCount := s.stats.cycleCount + 1, wires := .idle }

/-- What stopped the run inside step 2: MEM's fault, else EX's broken protocol; the older
instruction's wins (R308, R376, R378). -/
def State.stop (s : State) : Option Fault :=
  match s.wires.memStop with
  | some f => some f
  | none => s.wires.exStop

/-- After step 2: the run ends at once (R308, R374, R376), or steps 2b, 3 and 4 follow (R290). No
signal is held across cycles (R35). -/
def finishCycle (s : State) : State :=
  let t := match s.stop with
    | some f => endRun f s
    | none => manage (tickStep (forwardStep s))
  { t with wires := .idle }

/-- One clock cycle (R290). -/
def cycle (s : State) : Host.Outcome State Fault Refusal :=
  andThen (stageBodies (propagate (beginCycle s))) fun t => .next (finishCycle t)

/-- One step of the machine: a cycle while the run has not ended (R290, R331). A run that ended
normally stays in its final state; one that ended faulted answers its fault (DESIGN CHOICE, log 5). -/
def clockStep (s : State) : Host.Outcome State Fault Refusal :=
  if s.run.done then
    match s.run.faulted with
    | none => .next s
    | some f => .fault f
  else cycle s

/-! ## Placing an instruction -/

/-- The state in which a word has been stored at the fetch address and IF and ID have handled it,
with nothing younger fetched, so that the next cycle's EX executes it (log 7). -/
def placeWord (w : Word) (s : State) : State :=
  let fetched : Latch := { Latch.empty with word := w, pc := s.pc, valid := true }
  let t : State :=
    { s with
      mem := if inBounds s.cfg.memCapacity s.pc .word then
          memPutBytes s.mem s.pc.toNat (wordBytes w) else s.mem
      pc := s.pc + 4#32
      pipe.ifId := .empty
      pipe.curId := fetched
      clock.stall.ex := 0
      clock.defer.ex := 0
      ctl.branchInFlight := false
      ctl.delayedSecondBranch := false
      run := ⟨false, false, none⟩
      pred.pValid := false
      win.valid := false
      wires := { Wires.idle with idFresh := true } }
  match exec (decodeWord s.cfg.haltWord w) (t.inPhase .id) with
  | .next d => { redirectFetch (branchSignal d) with wires := .idle }
  | _ => t

end Sys2Proof.Machine
end

