-- ==== Sys2Proof/Machine/Step.lean ====
section
/-! DEFINITION. The machine's step: one clock cycle (00_scope.md R5, 53_pipeline_cycle.md R290). -/

namespace Sys2Proof.Machine

/-- One clock cycle (R290), or the end of the run (log 5). -/
def step (s : State) : Host.Outcome State Fault Refusal := clockStep s

/-- The state in which the next step executes the instruction whose bits are `w` (log 7). -/
def State.withFetchWord (s : State) (nbits w : Nat) : State :=
  placeWord (BitVec.ofNat 32 (w % 2 ^ nbits)) s

end Sys2Proof.Machine
end

