-- ==== Sys2Proof/Machine/Image.lean ====
section
/-! DEFINITION. Construction: the image loader (70_reset_and_hazards.md R400) and the machine it
constructs (R401). A text is a list of characters. -/

namespace Sys2Proof.Machine

/-- Why no machine is constructed (60_exceptions.md R377, R400). -/
inductive MalformedImage where
  | notHex
  | byteTooLarge (value : Nat)
  | markerBeyondCapacity (value : Nat)
  | byteBeyondCapacity (addr : Nat)
  deriving DecidableEq, Repr

/-- A character that separates tokens (R400; PRESUMED, log 14). -/
def isSpace (c : Char) : Bool :=
  c == ' ' || c == '\t' || c == '\n' || c == '\r'

/-- The tokens of a text, `cur` being the reversed characters of the token being read (R400). -/
def splitTokens (cur : List Char) : List Char → List (List Char)
  | [] => if cur.isEmpty then [] else [cur.reverse]
  | c :: rest =>
    if isSpace c then
      if cur.isEmpty then splitTokens [] rest else cur.reverse :: splitTokens [] rest
    else splitTokens (c :: cur) rest

/-- The value of a hexadecimal digit, upper or lower case (R400). -/
def hexDigit (c : Char) : Option Nat :=
  let n := c.toNat
  if 48 ≤ n ∧ n ≤ 57 then some (n - 48)
  else if 65 ≤ n ∧ n ≤ 70 then some (n - 55)
  else if 97 ≤ n ∧ n ≤ 102 then some (n - 87)
  else none

/-- Read the rest of a hexadecimal number after `acc`. -/
def hexFrom (acc : Nat) : List Char → Option Nat
  | [] => some acc
  | c :: rest =>
    match hexDigit c with
    | some d => hexFrom (acc * 16 + d) rest
    | none => none

/-- The value of a token: at least one hexadecimal digit and nothing else, with no 0x (R400). -/
def hexValue (t : List Char) : Option Nat := if t.isEmpty then none else hexFrom 0 t

/-- The loader's state: memory, the fill point, the size a marker has set (R400). -/
structure Loader where
  mem : List Host.Cell
  fill : Nat
  size : Option Nat
  deriving DecidableEq, Repr

/-- One token: a marker, by AT_MARKER, or a byte at the fill point (R400). -/
def loadToken (c : Config) (l : Loader) (t : List Char) : Except MalformedImage Loader :=
  match t with
  | '@' :: digits =>
    match hexValue digits with
    | none => .error .notHex
    | some v =>
      if c.memCapacity < v then .error (.markerBeyondCapacity v)
      else
        match c.atMarker with
        | .setSize => .ok { l with size := some v }
        | .setAddress => .ok { l with fill := v }
  | _ =>
    match hexValue t with
    | none => .error .notHex
    | some b =>
      if 0xFF < b then .error (.byteTooLarge b)
      else if c.memCapacity ≤ l.fill then .error (.byteBeyondCapacity l.fill)
      else .ok { l with mem := memPutByte l.mem l.fill (BitVec.ofNat 8 b), fill := l.fill + 1 }

/-- All tokens in order (R400). -/
def loadTokens (c : Config) (l : Loader) : List (List Char) → Except MalformedImage Loader
  | [] => .ok l
  | t :: rest =>
    match loadToken c l t with
    | .ok l' => loadTokens c l' rest
    | .error e => .error e

/-- `load(text)` (R400): memory starts all 0; without a marker the size is the number of bytes
loaded, the fill point. A size of 2^32, possible only with a capacity of 2^32, does not fit R38's 32 bits: it is
held as 0 (DESIGN CHOICE, log 20). -/
def loadImage (c : Config) (text : List Char) : Except MalformedImage (List Host.Cell × Word) :=
  match loadTokens c ⟨[], 0, none⟩ (splitTokens [] text) with
  | .ok l => .ok (l.mem, BitVec.ofNat 32 (l.size.getD l.fill))
  | .error e => .error e

/-- Construction: the machine at the start of cycle 1, or none when the image is malformed (R401,
R377). -/
def construct (c : Config) (text : List Char) : Except MalformedImage State :=
  match loadImage c text with
  | .ok (m, size) => .ok (State.init c m size)
  | .error e => .error e

end Sys2Proof.Machine
end

