-- ==== Sys2Proof/Machine/Run.lean ====
section
/-! DEFINITION. The host's view of a run: `run` with a fuel bound (70_reset_and_hazards.md R412,
53_pipeline_cycle.md R331), the result output (R403) and the counters (R410). -/

namespace Sys2Proof.Machine

/-- How a bounded run comes out (R331, R412). Running out of fuel is no end of the run. -/
inductive RunResult where
  | ended (s : State)
  | outOfFuel (s : State)
  | stopped (s : State)
  deriving DecidableEq, Repr

/-- `run()` (R290) bounded by FUEL cycles (R412, D37). `stopped` is a cycle that answers no next
state, which no meaning of this model makes (DESIGN CHOICE, log 17). -/
def runFuel : Nat → State → RunResult
  | 0, s => if s.run.done then .ended s else .outOfFuel s
  | n + 1, s =>
    if s.run.done then .ended s
    else
      match cycle s with
      | .next t => runFuel n t
      | _ => .stopped s

/-- The run has ended normally (R331). -/
def State.endedNormally (s : State) : Bool := s.run.done && s.run.faulted.isNone

/-- The run has ended faulted (R331, R370). -/
def State.endedFaulted (s : State) : Bool := s.run.done && s.run.faulted.isSome

/-- The result byte the host reads after a normal end (R403). After a faulted end the output is
not in the source (U14): none (DESIGN CHOICE, log 18). -/
def State.resultByte (s : State) : Option Byte :=
  if s.endedNormally then some ((s.readReg s.cfg.resultReg).extractLsb' 0 8) else none

/-- What the host writes: the result byte as an unsigned decimal integer (R403). A line terminator
is the host's matter (U13). -/
def State.hostOutput (s : State) : Option String :=
  s.resultByte.map (fun b => Nat.repr b.toNat)

end Sys2Proof.Machine
end

