-- ==== Sys2Proof/Safety.lean ====
section
/-! DEFINITION. Safety: the invariant that reachable states have, and runs, in the terms the claims
use. -/

namespace Sys2Proof.Machine

/-- Memory is canonical and lists no address beyond capacity (20_memory.md R67). -/
abbrev MemoryInv (s : State) : Prop :=
  Memory.wf s.mem = true ∧ ∀ c ∈ s.mem, c.1 < s.cfg.memCapacity

/-- The predictor's tables are canonical and every index and history is in range
(51_branch_predictor.md R247; the size in the constant modes is log 23). -/
abbrev PredictorInv (s : State) : Prop :=
  tableWf 0#2 s.pred.bht = true ∧ (∀ e ∈ s.pred.bht, e.1 < bhtSize s.cfg) ∧
  tableWf 0 s.pred.pht = true ∧
  (∀ e ∈ s.pred.pht, e.1 < 2 ^ s.cfg.idxBits ∧ e.2 < 2 ^ s.cfg.histLen) ∧
  s.pred.pAddr < 2 ^ s.cfg.idxBits ∧ s.pred.pCtr < bhtSize s.cfg

/-- The counters no rule requests are 0 (50_clock.md R226), and the stall counters are what the
outstanding memory and hazard requests left: EX and IF stall for the deferred cycles and the busy cycles, MEM
for the busy cycles, ID for the busy cycles and at most the deferred cycles but one (R323, R344). -/
abbrev ClockInv (s : State) : Prop :=
  s.clock.stall.wb = 0 ∧ s.clock.defer.ifetch = 0 ∧ s.clock.defer.ex = 0 ∧
  s.clock.defer.mem = 0 ∧ s.clock.defer.wb = 0 ∧ s.clock.memBusy ≤ 2 ∧
  s.clock.stall.mem = s.clock.memBusy ∧
  s.clock.stall.ex = s.clock.defer.id + s.clock.memBusy ∧
  s.clock.stall.ifetch = s.clock.stall.ex ∧
  s.clock.memBusy ≤ s.clock.stall.id ∧
  s.clock.stall.id ≤ s.clock.memBusy + (s.clock.defer.id - 1)

/-- The window is one block, and while it is valid its cursor stands at the pc (20_memory.md R37,
R72). -/
abbrev WindowInv (s : State) : Prop :=
  s.win.words.length = s.cfg.windowWords ∧ s.win.cursor ≤ s.cfg.windowWords ∧
  setWf s.win.dirty = true ∧ (∀ a ∈ s.win.dirty, a < s.cfg.memCapacity) ∧
  (s.win.valid = true →
    s.pc.toNat % 4 = 0 ∧ s.win.base.toNat % 4 = 0 ∧
      s.win.base + BitVec.ofNat 32 (4 * s.win.cursor) = s.pc)

/-- A fault a latch may carry: every one but ControllerInvariant, which ends a run at once (R376). -/
def carriedFault : Option Fault → Bool
  | some (.controllerInvariant _) => false
  | _ => true

/-- A latch before decode: it holds no instruction yet (R301, R302). -/
abbrev Latch.fetched (l : Latch) : Prop := l.inst = Decoded.nop ∧ carriedFault l.fault = true

/-- A latch between ID and EX: a bubble or tagged latch holds the NOP record, any other the record
of its word, unused fields 0 (30_encoding.md R85, R302). -/
abbrev Latch.decoded (h : Word) (l : Latch) : Prop :=
  carriedFault l.fault = true ∧
  l.inst = if l.valid && l.fault.isNone then (decodeWord h l.word).record l.word else Decoded.nop

/-- A latch after EX: a carried fault comes with the HALT record (R305); any other latch is as ID
made it. -/
abbrev Latch.executed (h : Word) (l : Latch) : Prop :=
  carriedFault l.fault = true ∧
  l.inst =
    if l.fault.isSome then Instr.halt.record h
    else if l.valid then (decodeWord h l.word).record l.word else Decoded.nop

/-- Every latch holds what its place in the pipeline allows. -/
abbrev LatchInv (s : State) : Prop :=
  Latch.fetched s.pipe.ifId ∧ Latch.fetched s.pipe.curId ∧
  Latch.decoded s.cfg.haltWord s.pipe.idEx ∧ Latch.decoded s.cfg.haltWord s.pipe.curEx ∧
  Latch.executed s.cfg.haltWord s.pipe.exMem ∧ Latch.executed s.cfg.haltWord s.pipe.curMem ∧
  Latch.executed s.cfg.haltWord s.pipe.memWb ∧ Latch.executed s.cfg.haltWord s.pipe.curWb

/-- The prediction protocol, while EX may still execute: the branch that waits for EX is the one
in flight and the one predicted, no second one is delayed (R326 to R328), and a deferred ID still holds the
instruction it last decoded (R303). -/
abbrev ProtocolInv (s : State) : Prop :=
  s.run.halting = false → s.run.done = false →
    s.pred.pValid = s.pipe.idEx.inst.kind.isBranch ∧
    s.ctl.branchInFlight = s.pipe.idEx.inst.kind.isBranch ∧
    s.ctl.delayedSecondBranch = false ∧
    (0 < s.clock.defer.id →
      s.pipe.idEx.word = s.pipe.curId.word ∧ s.pipe.idEx.valid = s.pipe.curId.valid ∧
      s.pipe.idEx.fault = s.pipe.curId.fault)

/-- A fault that ended the run is recorded only when the run has ended, and is never a
ControllerInvariant (R36, R370, R376). -/
abbrev RunInv (s : State) : Prop :=
  (s.run.faulted.isSome = true → s.run.done = true) ∧ carriedFault s.run.faulted = true

/-- The invariant of the machine between cycles: the configuration is legal, the slot of the
hard-wired register holds 0 (R22), no signal is held (R35), and every part is as its rules leave it. -/
structure Inv (s : State) : Prop where
  config : s.cfg.wf = true
  zero : s.regs[0] = 0#32
  wires : s.wires = Wires.idle
  memory : MemoryInv s
  predictor : PredictorInv s
  clock : ClockInv s
  window : WindowInv s
  latch : LatchInv s
  protocol : ProtocolInv s
  run : RunInv s

/-- A run: zero or more steps (R290). -/
inductive Reaches : State → State → Prop where
  | here (s : State) : Reaches s s
  | next {s t u : State} : Reaches s t → step t = .next u → Reaches s u

end Sys2Proof.Machine
end

