-- ==== Sys2Proof/Certificates/Slice0/Obligations.lean ====
section
/-! DEFINITION. The statements for the provers. "EX of i" and the like is `exec i (s.inPhase .ex)`:
the instruction presented by that stage (log 4). A conclusion `= .next { s.inPhase p with … }` gives
the whole state, so everything it does not name is unchanged. -/

open Sys2Proof Sys2Proof.Machine

/-! ## Encoding -/

/-- R83 to R92: decoding the encoding of an encodable instruction gives it back, from its word and
from its four bytes in memory order. -/
def Obligations.DecodeEncodeRoundTrip : Prop :=
  ∀ (h : Word) (i : Instr) (rest : List Byte), i.encodable h = true →
    decodeWord h (encode h i) = i ∧
    decodeBytes h (wordBytes (encode h i) ++ rest) = .ok (i, rest)

/-- R80, R92: every word decodes to an encodable instruction whose encoding is that word, so no bit
of a word is lost. -/
def Obligations.EncodeDecodeRoundTrip : Prop :=
  ∀ h w : Word, (decodeWord h w).encodable h = true ∧ encode h (decodeWord h w) = w

/-- R86 to R92 against spec/opcode_table.json: the decoder gives the kind of the table's row, never
NOP (R93), and no two rows match one word. -/
def Obligations.DecodeFollowsOpcodeTable : Prop :=
  (∀ h w : Word, (decodeWord h w).kind = tableKind h w ∧ (decodeWord h w).kind ≠ .NOP) ∧
  opcodeTable.Pairwise (fun r q => ∀ w : Word, ¬(w &&& r.mask = r.pattern ∧ w &&& q.mask = q.pattern))

/-- R85 (decision D18): which fields of the record are filled, from which bits, and that every
other is 0. The `imm` of a shift by an immediate is log 11's reading. -/
def Obligations.RecordFieldsFollowFormat : Prop :=
  ∀ h w : Word,
    let d := (decodeWord h w).record w
    let k := d.kind
    let aluReg := [Kind.ADD, .SUB, .SLL, .SLT, .SLTU, .XOR, .SRL, .SRA, .OR, .AND].contains k
    d.opcode = w.extractLsb' 0 7 ∧ d.funct3 = w.extractLsb' 12 3 ∧ d.funct7 = w.extractLsb' 25 7 ∧
    d.rd = (if k.isLoad || k.isJump || k.isAlu then w.extractLsb' 7 5 else 0) ∧
    d.rs1 = (if [Kind.LUI, .AUIPC, .JAL, .HALT, .ILLEGAL].contains k then 0
      else w.extractLsb' 15 5) ∧
    d.rs2 = (if k.isBranch || k.isStore || aluReg then w.extractLsb' 20 5 else 0) ∧
    d.shamt = (if [Kind.SLLI, .SRLI, .SRAI].contains k then w.extractLsb' 20 5 else 0) ∧
    d.imm = (if aluReg || [Kind.HALT, .ILLEGAL].contains k then 0
      else if k.isBranch then
        (w.extractLsb' 31 1 ++ w.extractLsb' 7 1 ++ w.extractLsb' 25 6 ++ w.extractLsb' 8 4 ++
          0#1).signExtend 32
      else if k.isStore then (w.extractLsb' 25 7 ++ w.extractLsb' 7 5).signExtend 32
      else if [Kind.LUI, .AUIPC].contains k then w.extractLsb' 12 20 ++ 0#12
      else if k = .JAL then
        (w.extractLsb' 31 1 ++ w.extractLsb' 12 8 ++ w.extractLsb' 20 1 ++ w.extractLsb' 21 10 ++
          0#1).signExtend 32
      else (w.extractLsb' 20 12).signExtend 32)

/-- Words the spec's own text gives: R96 (0x00100513), R124 (0x123452B7), R91 (HALT_WORD) and R92
(the all-zero word, FENCE, ECALL). -/
def Obligations.SpecWordsDecode : Prop :=
  let h := 0x0FF00513#32
  decodeBytes h [0x13#8, 0x05#8, 0x10#8, 0x00#8] = .ok (.addi 10#5 0#5 1#32, []) ∧
  decodeWord h 0x123452B7#32 = .lui 5#5 0x12345000#32 ∧
  decodeWord h 0x0FF00513#32 = .halt ∧
  decodeWord 0#32 0x0FF00513#32 = .addi 10#5 0#5 255#32 ∧
  decodeWord h 0x00000013#32 = .addi 0#5 0#5 0#32 ∧
  decodeWord h 0#32 = .illegal 0#32 ∧
  decodeWord h 0x0000000F#32 = .illegal 0x0000000F#32 ∧
  decodeWord h 0x00000073#32 = .illegal 0x00000073#32

/-! ## Registers -/

/-- R22: x[0] reads as 0 in every state and a write to it has no effect; a write to any other
register is read back and leaves the others alone. -/
def Obligations.ZeroRegisterIsHardwired : Prop :=
  ∀ (s : State) (r q : RegIdx) (v : Word),
    s.readReg 0 = 0 ∧ s.writeReg 0 v = s ∧
    (r ≠ 0 → (s.writeReg r v).readReg r = v) ∧
    (q ≠ r → (s.writeReg r v).readReg q = s.readReg q) ∧
    s.writeReg r v = { s with regs := (s.writeReg r v).regs }

/-! ## The ALU class -/

/-- R135, R136, R140, R143, R144: the encoding of each, and what EX computes and leaves. -/
def Obligations.RegisterArithmeticResults : Prop :=
  ∀ (h : Word) (rd rs1 rs2 : RegIdx) (s : State),
    let A := s.pipe.curEx.a
    let B := s.pipe.curEx.b
    ∀ p ∈ [(Instr.add rd rs1 rs2, 0x00#7, 0#3, A + B),
        (.sub rd rs1 rs2, 0x20#7, 0#3, A - B),
        (.xor rd rs1 rs2, 0x00#7, 4#3, A ^^^ B),
        (.or rd rs1 rs2, 0x00#7, 6#3, A ||| B),
        (.and rd rs1 rs2, 0x00#7, 7#3, A &&& B)],
      let w : Word := p.2.1 ++ rs2 ++ rs1 ++ p.2.2.1 ++ rd ++ 0x33#7
      (w ≠ h → decodeWord h w = p.1) ∧
      exec p.1 (s.inPhase .ex) = .next { s.inPhase .ex with
        pipe.exMem := { s.pipe.curEx with out := p.2.2.2 }
        fw := s.fw.publishEx rd p.2.2.2 }

/-- R137, R141, R142 with R120's shift amount, the low five bits of B (decision D21). -/
def Obligations.RegisterShiftResults : Prop :=
  ∀ (h : Word) (rd rs1 rs2 : RegIdx) (s : State),
    let A := s.pipe.curEx.a
    let n := s.pipe.curEx.b.toNat % 32
    ∀ p ∈ [(Instr.sll rd rs1 rs2, 0x00#7, 1#3, A <<< n),
        (.srl rd rs1 rs2, 0x00#7, 5#3, A >>> n),
        (.sra rd rs1 rs2, 0x20#7, 5#3, A.sshiftRight n)],
      let w : Word := p.2.1 ++ rs2 ++ rs1 ++ p.2.2.1 ++ rd ++ 0x33#7
      (w ≠ h → decodeWord h w = p.1) ∧
      exec p.1 (s.inPhase .ex) = .next { s.inPhase .ex with
        pipe.exMem := { s.pipe.curEx with out := p.2.2.2 }
        fw := s.fw.publishEx rd p.2.2.2 }

/-- R126, R129, R130, R131 with the sign-extended immediate, and R132, R133, R134 with the 5-bit
shift amount: the encoding of each, and what EX computes and leaves. -/
def Obligations.ImmediateArithmeticResults : Prop :=
  ∀ (h : Word) (rd rs1 : RegIdx) (j : BitVec 12) (shamt : BitVec 5) (s : State),
    let imm : Word := j.signExtend 32
    let A := s.pipe.curEx.a
    let wi : BitVec 3 → Word := fun f => j ++ rs1 ++ f ++ rd ++ 0x13#7
    let ws : BitVec 7 → BitVec 3 → Word := fun g f => g ++ shamt ++ rs1 ++ f ++ rd ++ 0x13#7
    ∀ p ∈ [(Instr.addi rd rs1 imm, wi 0#3, A + imm),
        (.xori rd rs1 imm, wi 4#3, A ^^^ imm),
        (.ori rd rs1 imm, wi 6#3, A ||| imm),
        (.andi rd rs1 imm, wi 7#3, A &&& imm),
        (.slli rd rs1 shamt, ws 0x00#7 1#3, A <<< shamt.toNat),
        (.srli rd rs1 shamt, ws 0x00#7 5#3, A >>> shamt.toNat),
        (.srai rd rs1 shamt, ws 0x20#7 5#3, A.sshiftRight shamt.toNat)],
      (p.2.1 ≠ h → decodeWord h p.2.1 = p.1) ∧
      exec p.1 (s.inPhase .ex) = .next { s.inPhase .ex with
        pipe.exMem := { s.pipe.curEx with out := p.2.2 }
        fw := s.fw.publishEx rd p.2.2 }

/-- R127, R128, R138, R139: the comparisons; the signed ones are the sign of the wrapped difference
or the true comparison, as SIGNED_CMP says (R122, decision D3). -/
def Obligations.ComparisonResults : Prop :=
  ∀ (h : Word) (rd rs1 rs2 : RegIdx) (j : BitVec 12) (s : State),
    let imm : Word := j.signExtend 32
    let A := s.pipe.curEx.a
    let B := s.pipe.curEx.b
    let less : Word → Word → Bool := fun a b =>
      if s.cfg.signedCmp = .trueSigned then decide (a.toInt < b.toInt) else (a - b).msb
    let wi : BitVec 3 → Word := fun f => j ++ rs1 ++ f ++ rd ++ 0x13#7
    let wr : BitVec 3 → Word := fun f => 0x00#7 ++ rs2 ++ rs1 ++ f ++ rd ++ 0x33#7
    ∀ p ∈ [(Instr.slti rd rs1 imm, wi 2#3, less A imm),
        (.sltiu rd rs1 imm, wi 3#3, decide (A.toNat < imm.toNat)),
        (.slt rd rs1 rs2, wr 2#3, less A B),
        (.sltu rd rs1 rs2, wr 3#3, decide (A.toNat < B.toNat))],
      let out : Word := if p.2.2 then 1#32 else 0#32
      (p.2.1 ≠ h → decodeWord h p.2.1 = p.1) ∧
      exec p.1 (s.inPhase .ex) = .next { s.inPhase .ex with
        pipe.exMem := { s.pipe.curEx with out := out }
        fw := s.fw.publishEx rd out }

/-- R124, R125: LUI gives the immediate, AUIPC the instruction's own fetch address plus it. -/
def Obligations.UpperImmediateResults : Prop :=
  ∀ (h : Word) (rd : RegIdx) (j : BitVec 20) (s : State),
    let imm : Word := j ++ 0#12
    ∀ p ∈ [(Instr.lui rd imm, 0x37#7, imm),
        (.auipc rd imm, 0x17#7, s.pipe.curEx.pc + imm)],
      let w : Word := j ++ rd ++ p.2.1
      (w ≠ h → decodeWord h w = p.1) ∧
      exec p.1 (s.inPhase .ex) = .next { s.inPhase .ex with
        pipe.exMem := { s.pipe.curEx with out := p.2.2 }
        fw := s.fw.publishEx rd p.2.2 }

/-- R123: how every ALU-class instruction passes through ID, EX, MEM and WB, for every rd, 0
included: then nothing is published, written or waited for. -/
def Obligations.AluClassPassage : Prop :=
  ∀ (i : Instr) (s : State), i.kind.isAlu = true →
    let d := i.record s.pipe.curId.word
    exec i (s.inPhase .id) = .next { s.inPhase .id with
      pipe.idEx :=
        { s.pipe.curId with inst := d, a := s.operand d.rs1, b := s.operand d.rs2, out := 0 } } ∧
    s.operand 0 = 0 ∧
    (∃ out, exec i (s.inPhase .ex) = .next { s.inPhase .ex with
      pipe.exMem := { s.pipe.curEx with out := out }
      fw := s.fw.publishEx d.rd out }) ∧
    exec i (s.inPhase .mem) = .next { s.inPhase .mem with pipe.memWb := s.pipe.curMem } ∧
    exec i (s.inPhase .wb) = .next ((s.inPhase .wb).writeReg d.rd s.pipe.curWb.out) ∧
    (d.rd = 0 → (∀ v, s.fw.publishEx d.rd v = s.fw) ∧
      (∀ v, (s.inPhase .wb).writeReg d.rd v = s.inPhase .wb) ∧
      ∀ (c : Decoded) (l : Latch), l.inst = d → hazardMatch c l = false)

/-- R121, R122 (decision D3): equality and the unsigned comparison are exact; the sign of the
wrapped difference is the true signed comparison exactly when the subtraction does not overflow. R122's gloss
`|signed(a) - signed(b)| ≥ 2^31` says otherwise at a difference of exactly -2^31: taking its word "overflows"
there is log 15 (DEDUCED). -/
def Obligations.SignOfDifferenceAndOverflow : Prop :=
  ∀ a b : Word,
    (aluEq a b = true ↔ a = b) ∧ (ltu a b = true ↔ a.toNat < b.toNat) ∧
    (lts .trueSigned a b = true ↔ a.toInt < b.toInt) ∧
    (lts .signOfDifference a b = lts .trueSigned a b ↔
      -(2 ^ 31) ≤ a.toInt - b.toInt ∧ a.toInt - b.toInt < 2 ^ 31)

/-! ## Control transfers -/

/-- R163: JAL in every stage, and the management step's use of its signal. -/
def Obligations.JalInEveryStage : Prop :=
  ∀ (h : Word) (rd : RegIdx) (j : BitVec 20) (s : State),
    let imm : Word := (j ++ 0#1).signExtend 32
    let w : Word := j.extractLsb' 19 1 ++ j.extractLsb' 0 10 ++ j.extractLsb' 10 1 ++
      j.extractLsb' 11 8 ++ rd ++ 0x6F#7
    let target := s.pipe.curId.pc + imm
    let link := s.pipe.curEx.pc + 4#32
    (w ≠ h → decodeWord h w = .jal rd imm) ∧
    exec (.jal rd imm) (s.inPhase .id) = .next { s.inPhase .id with
      pipe.idEx := { s.pipe.curId with
        inst := (Instr.jal rd imm).record s.pipe.curId.word, a := 0, b := 0, out := 0 }
      wires.idJump := some target } ∧
    (∀ t : State, t.wires.idJump = some target → redirectFetch t =
      { t with pc := target, pipe.ifId := Latch.empty, win.valid := false }) ∧
    exec (.jal rd imm) (s.inPhase .ex) = .next { s.inPhase .ex with
      pipe.exMem := { s.pipe.curEx with out := link }
      fw := s.fw.publishEx rd link } ∧
    exec (.jal rd imm) (s.inPhase .mem) = .next { s.inPhase .mem with pipe.memWb := s.pipe.curMem } ∧
    exec (.jal rd imm) (s.inPhase .wb) = .next ((s.inPhase .wb).writeReg rd s.pipe.curWb.out) ∧
    (s.fw.publishEx 0 link = s.fw ∧ s.writeReg 0 s.pipe.curWb.out = s)

/-- R164: JALR in every stage; the target is formed from the operand read in this decode, with bit
0 cleared (general knowledge). -/
def Obligations.JalrInEveryStage : Prop :=
  ∀ (h : Word) (rd rs1 : RegIdx) (j : BitVec 12) (s : State),
    let imm : Word := j.signExtend 32
    let w : Word := j ++ rs1 ++ 0#3 ++ rd ++ 0x67#7
    let link := s.pipe.curEx.pc + 4#32
    (w ≠ h → decodeWord h w = .jalr rd rs1 imm) ∧
    exec (.jalr rd rs1 imm) (s.inPhase .id) = .next { s.inPhase .id with
      pipe.idEx := { s.pipe.curId with
        inst := (Instr.jalr rd rs1 imm).record s.pipe.curId.word
        a := s.operand rs1, b := 0, out := 0 }
      wires.idJump := some ((s.operand rs1 + imm) &&& 0xFFFFFFFE#32) } ∧
    exec (.jalr rd rs1 imm) (s.inPhase .ex) = .next { s.inPhase .ex with
      pipe.exMem := { s.pipe.curEx with out := link }
      fw := s.fw.publishEx rd link } ∧
    exec (.jalr rd rs1 imm) (s.inPhase .mem) =
      .next { s.inPhase .mem with pipe.memWb := s.pipe.curMem } ∧
    exec (.jalr rd rs1 imm) (s.inPhase .wb) =
      .next ((s.inPhase .wb).writeReg rd s.pipe.curWb.out)

/-- R166, R167, R170, R171: the encoding and condition of the branches that compare for equality or
unsigned, and what EX resolves for a predicted branch. -/
def Obligations.ExactBranchConditions : Prop :=
  ∀ (h : Word) (rs1 rs2 : RegIdx) (j : BitVec 12) (s : State),
    let imm : Word := (j ++ 0#1).signExtend 32
    let A := s.pipe.curEx.a
    let B := s.pipe.curEx.b
    ∀ p ∈ [(Instr.beq rs1 rs2 imm, 0#3, decide (A = B)),
        (.bne rs1 rs2 imm, 1#3, decide (A ≠ B)),
        (.bltu rs1 rs2 imm, 6#3, decide (A.toNat < B.toNat)),
        (.bgeu rs1 rs2 imm, 7#3, decide (B.toNat ≤ A.toNat))],
      let w : Word := j.extractLsb' 11 1 ++ j.extractLsb' 4 6 ++ rs2 ++ rs1 ++ p.2.1 ++
        j.extractLsb' 0 4 ++ j.extractLsb' 10 1 ++ 0x63#7
      (w ≠ h → decodeWord h w = p.1) ∧
      (s.pred.pValid = true → exec p.1 (s.inPhase .ex) = .next { s.inPhase .ex with
        pipe.exMem := { s.pipe.curEx with out := if p.2.2 then 1#32 else 0#32 }
        wires.exBranch := some (p.2.2, s.pipe.curEx.pc + if p.2.2 then imm else 4#32) })

/-- R168, R169: the same of the branches that compare signed, by SIGNED_CMP (R122, decision D3). -/
def Obligations.SignedBranchConditions : Prop :=
  ∀ (h : Word) (rs1 rs2 : RegIdx) (j : BitVec 12) (s : State),
    let imm : Word := (j ++ 0#1).signExtend 32
    let A := s.pipe.curEx.a
    let B := s.pipe.curEx.b
    let less : Bool :=
      if s.cfg.signedCmp = .trueSigned then decide (A.toInt < B.toInt) else (A - B).msb
    ∀ p ∈ [(Instr.blt rs1 rs2 imm, 4#3, less), (.bge rs1 rs2 imm, 5#3, !less)],
      let w : Word := j.extractLsb' 11 1 ++ j.extractLsb' 4 6 ++ rs2 ++ rs1 ++ p.2.1 ++
        j.extractLsb' 0 4 ++ j.extractLsb' 10 1 ++ 0x63#7
      (w ≠ h → decodeWord h w = p.1) ∧
      (s.pred.pValid = true → exec p.1 (s.inPhase .ex) = .next { s.inPhase .ex with
        pipe.exMem := { s.pipe.curEx with out := if p.2.2 then 1#32 else 0#32 }
        wires.exBranch := some (p.2.2, s.pipe.curEx.pc + if p.2.2 then imm else 4#32) })

/-- R165, R303, R304 (decision D28), R376 (decision D35, log 9): every branch in ID, MEM and WB; in ID
the signal only on a fresh decode; and in EX, with no prediction pending, the ControllerInvariant stop. R327
(decision D31), R326, R320: what the management step makes of the branch signal, and the consultation of
the predictor at curID's pc when no jump is asserted. -/
def Obligations.BranchPassage : Prop :=
  (∀ (i : Instr) (s : State), i.kind.isBranch = true →
    let d := i.record s.pipe.curId.word
    exec i (s.inPhase .id) = .next { s.inPhase .id with
      pipe.idEx :=
        { s.pipe.curId with inst := d, a := s.operand d.rs1, b := s.operand d.rs2, out := 0 }
      wires.idBranch := if s.wires.idFresh then some (s.pipe.curId.pc + d.imm)
        else s.wires.idBranch } ∧
    (s.pred.pValid = false → exec i (s.inPhase .ex) = .next { s.inPhase .ex with
      wires.exStop := some (.controllerInvariant s.pipe.curEx.pc) }) ∧
    exec i (s.inPhase .mem) = .next { s.inPhase .mem with pipe.memWb := s.pipe.curMem } ∧
    exec i (s.inPhase .wb) = .next (s.inPhase .wb) ∧ d.rd = 0) ∧
  ∀ s t : State,
    (s.wires.idBranch = none → branchSignal s = s) ∧
    (∀ target, s.wires.idBranch = some target → branchSignal s = { s with
      ctl.branchInFlight := true
      ctl.delayedSecondBranch := s.ctl.branchInFlight || s.ctl.delayedSecondBranch
      ctl.branchTarget := target }) ∧
    (t.wires.idJump = none → resolve (branchSignal s) = (t, false) →
      manageFlow s = hazardStep (redirectFetch t)) ∧
    (t.wires.idJump = none → t.ctl.branchInFlight = false ∨ t.pred.pValid = true →
      redirectFetch t = t) ∧
    (t.wires.idJump = none → t.ctl.branchInFlight = true → t.pred.pValid = false →
      ∃ taken q, predict t.cfg t.pipe.curId.pc t.pred = some (taken, q) ∧
        redirectFetch t = if taken then
          { t with pred := q, pc := t.ctl.branchTarget, pipe.ifId := Latch.empty, win.valid := false }
        else { t with pred := q })

/-! ## Loads and stores -/

/-- R191, R194 to R198: every load in every stage, within capacity, at every alignment. -/
def Obligations.LoadsInEveryStage : Prop :=
  ∀ (h : Word) (rd rs1 : RegIdx) (j : BitVec 12) (s : State),
    let imm : Word := j.signExtend 32
    let ea := s.pipe.curMem.out
    let byte : Nat → Byte := fun k => s.readByte (ea.toNat + k)
    ∀ p ∈ [(Instr.lb rd rs1 imm, 0#3, 1, (byte 0).signExtend 32),
        (.lh rd rs1 imm, 1#3, 2, (byte 1 ++ byte 0).signExtend 32),
        (.lw rd rs1 imm, 2#3, 4, byte 3 ++ byte 2 ++ byte 1 ++ byte 0),
        (.lbu rd rs1 imm, 4#3, 1, (byte 0).zeroExtend 32),
        (.lhu rd rs1 imm, 5#3, 2, (byte 1 ++ byte 0).zeroExtend 32)],
      let w : Word := j ++ rs1 ++ p.2.1 ++ rd ++ 0x03#7
      (w ≠ h → decodeWord h w = p.1) ∧
      exec p.1 (s.inPhase .id) = .next { s.inPhase .id with
        pipe.idEx := { s.pipe.curId with
          inst := p.1.record s.pipe.curId.word, a := s.operand rs1, b := 0, out := 0 } } ∧
      exec p.1 (s.inPhase .ex) = .next { s.inPhase .ex with
        pipe.exMem := { s.pipe.curEx with out := s.pipe.curEx.a + imm }
        wires.memReq := true } ∧
      (ea.toNat + p.2.2.1 ≤ s.cfg.memCapacity →
        exec p.1 (s.inPhase .mem) = .next { s.inPhase .mem with
          pipe.memWb := { s.pipe.curMem with out := p.2.2.2 }
          fw := s.fw.publishMem rd p.2.2.2 }) ∧
      exec p.1 (s.inPhase .wb) = .next ((s.inPhase .wb).writeReg rd s.pipe.curWb.out)

/-- R192, R199, R200 (and R201's store): every store in every stage, within capacity, at every
alignment; the bytes stored are computed from the address EX handed on, and every other byte reads
as before. -/
def Obligations.StoresInEveryStage : Prop :=
  ∀ (h : Word) (rs1 rs2 : RegIdx) (j : BitVec 12) (s : State),
    let imm : Word := j.signExtend 32
    let ea := s.pipe.curMem.out
    let B := s.pipe.curMem.b
    ∀ p ∈ [(Instr.sb rs1 rs2 imm, 0#3, 1), (.sh rs1 rs2 imm, 1#3, 2), (.sw rs1 rs2 imm, 2#3, 4)],
      let w : Word := j.extractLsb' 5 7 ++ rs2 ++ rs1 ++ p.2.1 ++ j.extractLsb' 0 5 ++ 0x23#7
      (w ≠ h → decodeWord h w = p.1) ∧
      (p.1.record s.pipe.curId.word).rd = 0 ∧
      exec p.1 (s.inPhase .id) = .next { s.inPhase .id with
        pipe.idEx := { s.pipe.curId with
          inst := p.1.record s.pipe.curId.word
          a := s.operand rs1, b := s.operand rs2, out := 0 } } ∧
      exec p.1 (s.inPhase .ex) = .next { s.inPhase .ex with
        pipe.exMem := { s.pipe.curEx with out := s.pipe.curEx.a + imm }
        wires.memReq := true } ∧
      (Memory.wf s.mem = true → ea.toNat + p.2.2 ≤ s.cfg.memCapacity →
        ∃ m, exec p.1 (s.inPhase .mem) = .next { s.inPhase .mem with
            mem := m
            pipe.memWb := s.pipe.curMem
            wires.stored := (List.range p.2.2).map (ea.toNat + ·) } ∧
          Memory.wf m = true ∧
          ∀ a, memByte m a = if ea.toNat ≤ a ∧ a < ea.toNat + p.2.2 then
            B.extractLsb' (8 * (a - ea.toNat)) 8 else s.readByte a) ∧
      exec p.1 (s.inPhase .wb) = .next (s.inPhase .wb)

/-- R193: an access beyond capacity raises OutOfBounds(ea) in MEM, with nothing else written; at
any address within capacity, aligned or not, no fault is raised. -/
def Obligations.AccessBeyondCapacity : Prop :=
  ∀ (r q : RegIdx) (imm : Word) (s : State),
    let ea := s.pipe.curMem.out
    ∀ p ∈ [(Instr.lb r q imm, 1), (.lbu r q imm, 1), (.sb r q imm, 1), (.lh r q imm, 2),
        (.lhu r q imm, 2), (.sh r q imm, 2), (.lw r q imm, 4), (.sw r q imm, 4)],
      (s.cfg.memCapacity < ea.toNat + p.2 →
        exec p.1 (s.inPhase .mem) =
          .next { s.inPhase .mem with wires.memStop := some (.outOfBounds ea) }) ∧
      (ea.toNat + p.2 ≤ s.cfg.memCapacity →
        ∃ t, exec p.1 (s.inPhase .mem) = .next t ∧ t.wires.memStop = s.wires.memStop)

/-- R202: what a store of a width put at an address, a load of that width from it returns, in any
later state in which those bytes are unchanged. -/
def Obligations.LoadReturnsWhatStorePut : Prop :=
  ∀ (rs1 rs2 rd base : RegIdx) (imm imm' : Word) (s t u : State),
    let v := s.pipe.curMem.b
    let ea := s.pipe.curMem.out
    ∀ p ∈ [(Instr.sb rs1 rs2 imm, Instr.lb rd base imm', 1, (v.extractLsb' 0 8).signExtend 32),
        (.sb rs1 rs2 imm, .lbu rd base imm', 1, (v.extractLsb' 0 8).zeroExtend 32),
        (.sh rs1 rs2 imm, .lh rd base imm', 2, (v.extractLsb' 0 16).signExtend 32),
        (.sh rs1 rs2 imm, .lhu rd base imm', 2, (v.extractLsb' 0 16).zeroExtend 32),
        (.sw rs1 rs2 imm, .lw rd base imm', 4, v)],
      Memory.wf s.mem = true → ea.toNat + p.2.2.1 ≤ s.cfg.memCapacity →
      exec p.1 (s.inPhase .mem) = .next t →
      u.cfg = s.cfg → u.pipe.curMem.out = ea →
      (∀ a, ea.toNat ≤ a → a < ea.toNat + p.2.2.1 → u.readByte a = t.readByte a) →
      exec p.2.1 (u.inPhase .mem) = .next { u.inPhase .mem with
        pipe.memWb := { u.pipe.curMem with out := p.2.2.2 }
        fw := u.fw.publishMem rd p.2.2.2 }

/-! ## HALT, ILLEGAL and the bubble -/

/-- R211, R86, R321, R322 (decisions D2, D5): HALT in every stage and what the management step
makes of its signals. -/
def Obligations.HaltInEveryStage : Prop :=
  ∀ (h : Word) (s : State),
    decodeWord h h = .halt ∧
    exec .halt (s.inPhase .id) = .next { s.inPhase .id with
      pipe.idEx := { s.pipe.curId with
        inst := Instr.halt.record s.pipe.curId.word, a := 0, b := 0, out := 0 } } ∧
    exec .halt (s.inPhase .ex) = .next { s.inPhase .ex with
      pipe.exMem := s.pipe.curEx, wires.exHalt := true } ∧
    exec .halt (s.inPhase .mem) = .next { s.inPhase .mem with pipe.memWb := s.pipe.curMem } ∧
    exec .halt (s.inPhase .wb) = .next { s.inPhase .wb with
      wires.wbHalt := some s.pipe.curWb.fault } ∧
    (∀ f, s.wires.wbHalt = some f →
      manage s = { s with run.done := true, run.faulted := f }) ∧
    (s.wires.wbHalt = none → s.wires.exHalt = true → s.wires.memReq = false →
      manage s = { s with run.halting := true })

/-- R212, R92, R305, R373 (decisions D19, D29): a word no row of the opcode table matches decodes
to ILLEGAL, and EX turns it into a HALT record that carries IllegalInstruction(pc). That record's raw
fields are log 6's (DEDUCED). -/
def Obligations.IllegalInEveryStage : Prop :=
  ∀ (h w : Word) (s : State),
    ((∀ r ∈ opcodeTable, w &&& r.mask ≠ r.pattern) → w ≠ h → decodeWord h w = .illegal w) ∧
    exec (.illegal w) (s.inPhase .id) = .next { s.inPhase .id with
      pipe.idEx := { s.pipe.curId with
        inst := (Instr.illegal w).record s.pipe.curId.word, a := 0, b := 0, out := 0 } } ∧
    exec (.illegal w) (s.inPhase .ex) = .next { s.inPhase .ex with
      pipe.exMem := { s.pipe.curEx with
        inst := Instr.halt.record s.cfg.haltWord
        fault := some (.illegalInstruction s.pipe.curEx.pc) }
      wires.exHalt := true } ∧
    exec (.illegal w) (s.inPhase .mem) = .next { s.inPhase .mem with
      pipe.memWb := s.pipe.curMem } ∧
    exec (.illegal w) (s.inPhase .wb) = .next (s.inPhase .wb)

/-- R210: a bubble does nothing in any stage that runs, causes no hazard, and publishes nothing. R305,
R372 (decision D29): a fault tag is raised by EX, with a HALT record whose raw fields are log 6's
(DEDUCED). -/
def Obligations.BubbleDoesNothing : Prop :=
  ∀ s : State,
    (s.runs .id = true → s.pipe.curId.valid = false ∨ s.pipe.curId.fault ≠ none →
      decodeBody s = .next { s with
        pipe.idEx := { s.pipe.curId with inst := Decoded.nop, a := 0, b := 0, out := 0 } }) ∧
    (s.runs .ex = true → s.pipe.curEx.inst = Decoded.nop → s.pipe.curEx.fault = none →
      executeBody s = .next { s with pipe.exMem := { s.pipe.curEx with out := 0 } }) ∧
    (s.runs .mem = true → s.pipe.curMem.inst = Decoded.nop →
      memoryBody s = .next { s with pipe.memWb := s.pipe.curMem }) ∧
    (s.runs .wb = true → s.pipe.curWb.inst = Decoded.nop → writeBackBody s = .next s) ∧
    (∀ f, s.runs .ex = true → s.pipe.curEx.fault = some f →
      executeBody s = .next { s with
        pipe.exMem := { s.pipe.curEx with
          inst := Instr.halt.record s.cfg.haltWord, fault := some f }
        wires.exHalt := true }) ∧
    (∀ (c : Decoded) (l : Latch), l.inst = Decoded.nop → hazardMatch c l = false) ∧
    ∀ l : Latch, hazardMatch Decoded.nop l = false

/-! ## The clock -/

/-- R220 to R223: the requests add to their own counter and touch nothing else, setMemoryBusy
replaces, and the tests are positivity. R323: the memory-stall request. R320, R322 (decisions D30, D5): the
management step makes it before its halting return. -/
def Obligations.ClockRequests : Prop :=
  ∀ (s : State) (p q : Stage) (n : Nat),
    (requestStall p n s).clock.stall.get q = s.clock.stall.get q + (if q = p then n else 0) ∧
    requestStall p n s = { s with clock.stall := (requestStall p n s).clock.stall } ∧
    (requestDefer p n s).clock.defer.get q = s.clock.defer.get q + (if q = p then n else 0) ∧
    requestDefer p n s = { s with clock.defer := (requestDefer p n s).clock.defer } ∧
    (s.isStalled q = true ↔ s.clock.stall.get q > 0) ∧
    (s.isDeferred q = true ↔ s.clock.defer.get q > 0) ∧
    setMemoryBusy n s = { s with clock.memBusy := n } ∧
    (s.memoryIdle = true ↔ s.clock.memBusy = 0) ∧
    (s.wires.memReq = false → memorySignal s = s) ∧
    (s.wires.memReq = true → memorySignal s = { s with
      clock.memBusy := 2
      clock.stall.mem := s.clock.stall.mem + 2
      clock.stall.ex := s.clock.stall.ex + 2
      clock.stall.id := s.clock.stall.id + 2
      clock.stall.ifetch := s.clock.stall.ifetch + 2 }) ∧
    (s.wires.wbHalt = none → manage s =
      if s.wires.exHalt || s.run.halting then
        { memorySignal s with run.halting := true }
      else manageFlow (memorySignal s))

/-- R224, R225 (conflict C1, decision D22): after k ticks every stall counter is k lower, the busy
counter is k lower, and a defer counter is lower by the ticks in which memory was idle. -/
def Obligations.CountersAfterTicks : Prop :=
  ∀ (c : Clock) (k : Nat) (p : Stage),
    (Clock.tick^[k] c).stall.get p = c.stall.get p - k ∧
    (Clock.tick^[k] c).memBusy = c.memBusy - k ∧
    (Clock.tick^[k] c).defer.get p = c.defer.get p - (k - c.memBusy)

/-! ## The predictor -/

/-- R242: a counter predicts taken exactly when its top bit is set, that is in states 2 and 3. -/
def Obligations.CounterPredictsByTopBit : Prop :=
  ∀ c : BitVec 2, counterTaken c = c.getLsbD 1 ∧ (counterTaken c = true ↔ c = 2#2 ∨ c = 3#2)

/-- R243, R247 (general knowledge): n equal outcomes move a counter n states towards their end and
no further. -/
def Obligations.CounterSaturates : Prop :=
  ∀ (c : BitVec 2) (n : Nat),
    ((List.replicate n true).foldl counterNext c).toNat = min (c.toNat + n) 3 ∧
    ((List.replicate n false).foldl counterNext c).toNat = c.toNat - n

/-- R244, R245, R246 (decisions D13, D15, D16): what predict answers and records, and what update
trains, by mode; each is turned away when its condition on the pending marker fails. Above 30 IDX_BITS the
pc bits that do not exist count as 0 (DESIGN CHOICE, log 19). -/
def Obligations.PredictorProtocol : Prop :=
  ∀ (c : Config) (p : Predictor) (pc : Word) (taken : Bool),
    let a := (pc >>> 2).toNat % 2 ^ c.idxBits
    let ctr := match c.predictor with
      | .alwaysTaken => 0
      | .alwaysNotTaken => 0
      | .oneLevel => a
      | .twoLevel => a * 2 ^ c.histLen + p.history a
    let ans := match c.predictor with
      | .alwaysTaken => true
      | .alwaysNotTaken => false
      | .oneLevel => (p.counter ctr).getLsbD 1
      | .twoLevel => (p.counter ctr).getLsbD 1
    (p.pValid = true → predict c pc p = none) ∧
    (p.pValid = false → predict c pc p =
      some (ans, { p with pValid := true, pAddr := a, pCtr := ctr, pPred := ans })) ∧
    (p.pValid = false → update c taken p = none) ∧
    (p.pValid = true → tableWf 0#2 p.bht = true → tableWf 0 p.pht = true →
      ∃ q, update c taken p = some q ∧
        q = { p with pValid := false, bht := q.bht, pht := q.pht } ∧
        (∀ k, q.counter k =
          if (c.predictor = .oneLevel ∨ c.predictor = .twoLevel) ∧ k = p.pCtr then
            counterNext (p.counter k) taken else p.counter k) ∧
        ∀ k, q.history k =
          if c.predictor = .twoLevel ∧ k = p.pAddr then
            (2 * p.history k + if taken then 1 else 0) % 2 ^ c.histLen else p.history k)

/-! ## Forwarding and hazards -/

/-- R270, R272, R273, R277 (decisions D20, D23): a published value is seen by lookup after one
advance of a stage that is not stalled, not before; register 0 is never published or found. `advance` copies a
pending slot whole, empty or not, unless its stage is stalled, and clears it. R274, R311 (decision D24): step
2b advances only while memory is idle, with the stalls of step 2, before the tick and the management step.
R302, R276 (decision D26): the operand ID reads is the forwarded value under FORWARD when lookup finds one, and
else the register file's. -/
def Obligations.PublishedValueIsVisibleNextCycle : Prop :=
  (∀ (t : FwTable) (p : BypassPriority) (r : RegIdx) (v : Word) (b : Bool),
    t.publishEx 0 v = t ∧ t.publishMem 0 v = t ∧ t.lookup p 0 = none ∧
    (∀ q, (t.publishEx r v).lookup p q = t.lookup p q ∧
      (t.publishMem r v).lookup p q = t.lookup p q) ∧
    (r ≠ 0 →
      ((t.publishEx r v).advance false b).lookup .exFirst r = some v ∧
      ((t.publishMem r v).advance b false).lookup .memFirst r = some v ∧
      (((t.publishEx r v).advance false b).visMem.reg ≠ r →
        ((t.publishEx r v).advance false b).lookup .memFirst r = some v) ∧
      (((t.publishMem r v).advance b false).visEx.reg ≠ r →
        ((t.publishMem r v).advance b false).lookup .exFirst r = some v)) ∧
    (t.advance true b).visEx = t.visEx ∧ (t.advance b true).visMem = t.visMem) ∧
  (∀ (t : FwTable) (ex mem : Bool), t.advance ex mem =
    { visEx := if ex then t.visEx else t.pendEx, pendEx := ⟨0, 0⟩,
      visMem := if mem then t.visMem else t.pendMem, pendMem := ⟨0, 0⟩ }) ∧
  (∀ (t : FwTable) (p : BypassPriority) (r : RegIdx), t.pendEx.reg = 0 → t.pendMem.reg = 0 →
    (t.advance false false).lookup p r = none) ∧
  ∀ s : State,
    forwardStep s = (if s.clock.memBusy = 0 then
      { s with fw := s.fw.advance (decide (0 < s.clock.stall.ex)) (decide (0 < s.clock.stall.mem)) }
      else s) ∧
    (s.wires.memStop = none → s.wires.exStop = none →
      finishCycle s = { manage (tickStep (forwardStep s)) with wires := Wires.idle }) ∧
    s.operand 0 = 0 ∧
    ∀ r, r ≠ 0 →
      (s.cfg.hazardPolicy = .stall → s.operand r = s.readReg r) ∧
      (s.cfg.hazardPolicy = .forward → s.fw.lookup s.cfg.bypassPriority r = none →
        s.operand r = s.readReg r) ∧
      ∀ v, s.cfg.hazardPolicy = .forward → s.fw.lookup s.cfg.bypassPriority r = some v →
        s.operand r = v

/-- R341: when a latch matches; so a store or a branch never matches as a producer, and an
instruction with no register source never as a consumer. -/
def Obligations.HazardMatching : Prop :=
  (∀ (c : Decoded) (l : Latch),
    hazardMatch c l = true ↔ l.inst.rd ≠ 0 ∧ (l.inst.rd = c.rs1 ∨ l.inst.rd = c.rs2)) ∧
  (∀ (i : Instr) (w : Word) (c : Decoded) (l : Latch), l.inst = i.record w →
    i.kind.isStore = true ∨ i.kind.isBranch = true → hazardMatch c l = false) ∧
  (∀ (i : Instr) (w : Word) (l : Latch),
    i.kind ∈ [Kind.LUI, .AUIPC, .JAL, .HALT, .ILLEGAL] → hazardMatch (i.record w) l = false) ∧
  ∀ l : Latch, hazardMatch Decoded.nop l = false

/-- R340, R342, R343, R344 (decisions D33, D34): what the arbiter adds, under each policy, and R330
(decision D32): it runs only if ID ran. -/
def Obligations.ArbiterRequests : Prop :=
  ∀ s : State,
    let i := s.pipe.idEx.inst
    let one : Bool → Nat := fun p => if p then 1 else 0
    let wb := if s.cfg.hazardPolicy = .stall then one (hazardMatch i s.pipe.curWb) else 0
    let mem := if s.cfg.hazardPolicy = .stall then one (hazardMatch i s.pipe.memWb)
      else one (hazardMatch i s.pipe.memWb && s.pipe.memWb.inst.kind.isLoad)
    let ex := one (hazardMatch i s.pipe.exMem)
    let r := if s.cfg.hazardPolicy = .stall then wb + 2 * mem + 3 * ex else mem + ex
    arbitrate s = { s with
      stats.hazardCount := s.stats.hazardCount + (wb + mem + ex)
      clock.stall.ex := s.clock.stall.ex + r
      clock.stall.ifetch := s.clock.stall.ifetch + r
      clock.stall.id := s.clock.stall.id + (r - (wb + mem + ex))
      clock.defer.id := s.clock.defer.id + r } ∧
    hazardStep s = if s.wires.idRan then arbitrate s else s

/-! ## The cycle -/

/-- R292: propagation, latch by latch. `idRan` is the model's note of run(ID) (log 3). -/
def Obligations.PropagationLatchByLatch : Prop :=
  ∀ s : State,
    let c := s.clock
    let l := s.pipe
    propagate s = { s with
      wires.idFresh := decide (c.defer.id = 0)
      wires.idRan := decide (c.stall.id = 0) && !s.run.halting
      pipe := {
        curId := if c.defer.id = 0 then l.ifId else l.curId
        ifId := if c.defer.id = 0 ∧ c.stall.id = 0 then Latch.empty else l.ifId
        curEx := if c.defer.ex = 0 then l.idEx else l.curEx
        idEx := if c.defer.ex = 0 ∧ c.stall.ex = 0 then Latch.empty else l.idEx
        curMem := if c.defer.mem = 0 then l.exMem else l.curMem
        exMem := if c.defer.mem = 0 ∧ c.stall.mem = 0 then Latch.empty else l.exMem
        curWb := if c.defer.wb = 0 then l.memWb else l.curWb
        memWb := if c.defer.wb = 0 ∧ c.stall.wb = 0 then Latch.empty else l.memWb } }

/-- R301: the IF body. -/
def Obligations.FetchBodyEffect : Prop :=
  ∀ s : State,
    let l : Latch := { Latch.empty with pc := s.pc, valid := true }
    (s.runs .ifetch = false → fetchBody s = s) ∧
    (s.runs .ifetch = true → s.pc.toNat % 4 ≠ 0 →
      fetchBody s = { s with
        pipe.ifId := { l with fault := some (.misalignedFetch s.pc) }, pc := s.pc + 4#32 }) ∧
    (∀ v, s.runs .ifetch = true → s.pc.toNat % 4 = 0 → (fetchWord s).2 = .ok v →
      fetchBody s = { s with
        pipe.ifId := { l with word := v }, win := (fetchWord s).1, pc := s.pc + 4#32 }) ∧
    ∀ f, s.runs .ifetch = true → s.pc.toNat % 4 = 0 → (fetchWord s).2 = .error f →
      fetchBody s = { s with
        pipe.ifId := { l with fault := some f }, win := (fetchWord s).1, pc := s.pc + 4#32 }

/-- R71, R73 (decisions D10, D11): `fetchWord` with the window to be loaded, and with a block held. The
fresh block is all of it, with no byte dirty; a held block only moves its cursor, and gives OutOfBounds for an
absent word, StaleFetch for a word with a byte stored to since the load, and else the word as loaded. The
bytes of a cycle's store join those stored to (R294). Fault addresses are 32-bit (log 22). -/
def Obligations.WindowFetchAndStaleness : Prop :=
  ∀ s : State,
    (s.cfg.windowWords ≠ 0 → s.win.valid = false ∨ s.win.cursor = s.cfg.windowWords →
      let w := (fetchWord s).1
      let word : Nat → Option Word := fun a => if a + 4 ≤ s.cfg.memCapacity then
        some (s.readByte (a + 3) ++ s.readByte (a + 2) ++ s.readByte (a + 1) ++ s.readByte a) else none
      w.valid = true ∧ w.base = s.pc ∧ w.cursor = 1 ∧ w.dirty = [] ∧
      w.words.length = s.cfg.windowWords ∧
      (∀ k, k < s.cfg.windowWords → w.words[k]? = some (word (s.pc.toNat + 4 * k))) ∧
      (fetchWord s).2 = match word s.pc.toNat with
        | some v => .ok v
        | none => .error (.outOfBounds s.pc)) ∧
    (s.win.valid = true → s.win.cursor < s.cfg.windowWords →
      let a := s.win.base.toNat + 4 * s.win.cursor
      let stored := ∃ x, a ≤ x ∧ x < a + 4 ∧ x ∈ s.win.dirty
      (fetchWord s).1 = { s.win with cursor := s.win.cursor + 1 } ∧
      (s.win.words[s.win.cursor]? = some none →
        (fetchWord s).2 = .error (.outOfBounds (BitVec.ofNat 32 a))) ∧
      ∀ v, s.win.words[s.win.cursor]? = some (some v) →
        (stored → (fetchWord s).2 = .error (.staleFetch (BitVec.ofNat 32 a))) ∧
        (¬stored → (fetchWord s).2 = .ok v)) ∧
    joinStored s = { s with win.dirty := (joinStored s).win.dirty } ∧
    ∀ x, x ∈ (joinStored s).win.dirty ↔ x ∈ s.win.dirty ∨ x ∈ s.wires.stored

/-- R325: the jump redirect, in the management step that was not flushed; a flush discards it. -/
def Obligations.JumpRedirect : Prop :=
  ∀ (s t : State) (target : Word), t.wires.idJump = some target →
    (resolve (branchSignal s) = (t, false) →
      manageFlow s = hazardStep
        { t with pc := target, pipe.ifId := Latch.empty, win.valid := false }) ∧
    (resolve (branchSignal s) = (t, true) → manageFlow s = t)

/-- R324, R328: the resolution of a branch: misprediction recovery, which ends the management step,
and a correct prediction, after which no prediction is pending. With no branch resolved nothing changes. -/
def Obligations.BranchResolution : Prop :=
  (∀ s : State, s.wires.exBranch = none → resolve s = (s, false)) ∧
  ∀ (s : State) (taken : Bool) (actualTarget : Word) (p : Predictor),
    s.wires.exBranch = some (taken, actualTarget) → update s.cfg taken s.pred = some p →
    p.pValid = false ∧
    (taken ≠ s.pred.pPred →
      resolve s = ({ s with
        pred := p
        stats.misses := s.stats.misses + 1
        pc := actualTarget
        pipe.ifId := Latch.empty
        pipe.curId := Latch.empty
        pipe.idEx := Latch.empty
        ctl.branchInFlight := false
        ctl.delayedSecondBranch := false
        win.valid := false
        fw := ⟨⟨0, 0⟩, ⟨0, 0⟩, ⟨0, 0⟩, ⟨0, 0⟩⟩ }, true)) ∧
    (taken = s.pred.pPred →
      resolve s = ({ s with
        pred := p
        stats.hits := s.stats.hits + 1
        ctl.branchInFlight := if s.ctl.delayedSecondBranch then s.ctl.branchInFlight else false
        ctl.delayedSecondBranch := false }, false)) ∧
    ∀ t, resolve (branchSignal s) = (t, true) → manageFlow s = t

/-- R291, R294: the commit of step 2 gives one state, whichever order the five stages are taken
in. -/
def Obligations.StageOrderDoesNotMatter : Prop :=
  ∀ (order : List Stage) (o : Bodies) (s : State), order.Perm Stage.all →
    commitIn order o s = commitIn Stage.all o s

/-- R5, R290, R302 to R310, log 4: a step of a run that has not ended is the commit and completion
of five bodies evaluated on the state after propagation, ID's with the registers WB leaves. R293 (its halting
terms are decision D5): when a stage runs, and that a body whose stage does not run changes nothing. A body that runs presents its latch's instruction to `exec` (a bubble or
tagged latch is BubbleDoesNothing's). R294: what the commit takes of each body. And an instruction ID decoded is
the one its record stands for from then on. -/
def Obligations.StepRunsTheInstructionsInFlight : Prop :=
  (∀ s : State, s.run.done = false →
    let p := propagate (beginCycle s)
    ∃ d e m w : State,
      writeBackBody p = .next w ∧ memoryBody p = .next m ∧ executeBody p = .next e ∧
      decodeBody { p with regs := w.regs } = .next d ∧
      step s = .next (finishCycle (commit ⟨fetchBody p, d, e, m, w⟩ p))) ∧
  (∀ p : State,
    (p.runs .ifetch = true ↔ p.clock.stall.ifetch = 0 ∧ p.run.halting = false) ∧
    (p.runs .id = true ↔ p.clock.stall.id = 0 ∧ p.run.halting = false) ∧
    (p.runs .ex = true ↔ p.clock.stall.ex = 0 ∧ p.run.halting = false) ∧
    (p.runs .mem = true ↔ p.clock.stall.mem = 0) ∧
    (p.runs .wb = true ↔ p.clock.stall.wb = 0) ∧
    (p.runs .ifetch = false → fetchBody p = p) ∧
    (p.runs .id = false → decodeBody p = .next p) ∧
    (p.runs .ex = false → executeBody p = .next p) ∧
    (p.runs .mem = false → memoryBody p = .next p) ∧
    (p.runs .wb = false → writeBackBody p = .next p) ∧
    (p.runs .id = true → p.pipe.curId.valid = true → p.pipe.curId.fault = none →
      decodeBody p = exec (decodeWord p.cfg.haltWord p.pipe.curId.word) (p.inPhase .id)) ∧
    ∀ i,
      (p.runs .ex = true → p.pipe.curEx.fault = none →
        p.pipe.curEx.inst.instr p.pipe.curEx.word = some i →
        executeBody p = exec i (p.inPhase .ex)) ∧
      (p.runs .mem = true → p.pipe.curMem.inst.instr p.pipe.curMem.word = some i →
        memoryBody p = exec i (p.inPhase .mem)) ∧
      (p.runs .wb = true → p.pipe.curWb.inst.instr p.pipe.curWb.word = some i →
        writeBackBody p = exec i (p.inPhase .wb))) ∧
  (∀ (f d e m w p : State), commit ⟨f, d, e, m, w⟩ p = joinStored { p with
    regs := w.regs
    pc := f.pc
    win := f.win
    mem := m.mem
    pipe.ifId := f.pipe.ifId
    pipe.idEx := d.pipe.idEx
    pipe.exMem := e.pipe.exMem
    pipe.memWb := m.pipe.memWb
    fw.pendEx := e.fw.pendEx
    fw.pendMem := m.fw.pendMem
    wires.idJump := d.wires.idJump
    wires.idBranch := d.wires.idBranch
    wires.exBranch := e.wires.exBranch
    wires.exHalt := e.wires.exHalt
    wires.memReq := e.wires.memReq
    wires.exStop := e.wires.exStop
    wires.memStop := m.wires.memStop
    wires.stored := m.wires.stored
    wires.wbHalt := w.wires.wbHalt }) ∧
  ∀ h w : Word, ((decodeWord h w).record w).instr w = some (decodeWord h w)

/-- R290, R301, R302, log 4: where the bytes at the pc decode to an instruction, a running IF with
no block held puts that instruction's word into IF_ID, and two steps later ID's latch stands for exactly
that instruction, if no redirection, stall, deferral or end of run came between. -/
def Obligations.FetchedBytesBecomeTheDecodedInstruction : Prop :=
  ∀ (s t u : State) (i : Instr),
    s.cfg.wf = true → s.run.done = false → s.run.halting = false → s.clock.stall.ifetch = 0 →
    s.win.valid = false → s.pc.toNat % 4 = 0 → s.pc.toNat + 4 ≤ s.cfg.memCapacity →
    decodeBytes s.cfg.haltWord ((List.range 4).map (fun k => s.readByte (s.pc.toNat + k))) =
      .ok (i, []) →
    step s = .next t →
    (t.pipe.ifId.valid = true → t.pipe.ifId.pc = s.pc ∧ t.pipe.ifId.fault = none ∧
      decodeWord t.cfg.haltWord t.pipe.ifId.word = i) ∧
    (t.pipe.ifId.valid = true → t.run.done = false → t.run.halting = false →
      t.clock.stall.id = 0 → t.clock.defer.id = 0 → step t = .next u →
      u.pipe.idEx.valid = true →
      u.pipe.idEx.pc = s.pc ∧ u.pipe.idEx.fault = none ∧
        u.pipe.idEx.inst.instr u.pipe.idEx.word = some i)

/-- R290, R35, R38, R40: a run that has not ended always takes a step, which counts one cycle, keeps
the configuration and the logical size, and holds no signal. -/
def Obligations.RunningMachineAlwaysSteps : Prop :=
  ∀ s : State, s.run.done = false → ∃ t, step s = .next t ∧
    t.stats.cycleCount = s.stats.cycleCount + 1 ∧ t.cfg = s.cfg ∧
    t.logicalSize = s.logicalSize ∧ t.wires = Wires.idle

/-- R411: in one cycle a stall counter falls by at most 1 and rises by at most 8, a defer counter by
at most 6, and the busy counter never rises above the 2 of a memory request. -/
def Obligations.CountersChangeWithinBounds : Prop :=
  ∀ (s t : State) (p : Stage), s.run.done = false → step s = .next t →
    s.clock.stall.get p - 1 ≤ t.clock.stall.get p ∧
    t.clock.stall.get p ≤ s.clock.stall.get p + 8 ∧
    s.clock.defer.get p - 1 ≤ t.clock.defer.get p ∧
    t.clock.defer.get p ≤ s.clock.defer.get p + 6 ∧
    t.clock.memBusy ≤ max s.clock.memBusy 2

/-- R331, R412 (decision D37), log 5: a run that has ended stays ended; a fuel bound only cuts a run
short: an ended run ends the same with more fuel, and out of fuel is no end. -/
def Obligations.EndOfRunAndFuel : Prop :=
  (∀ s : State, s.run.done = true →
    (s.run.faulted = none → step s = .next s) ∧
    ∀ f, s.run.faulted = some f → step s = .fault f) ∧
  (∀ (n k : Nat) (s t : State), runFuel n s = .ended t → runFuel (n + k) s = .ended t) ∧
  ∀ (n : Nat) (s t : State),
    (runFuel n s = .ended t → t.run.done = true ∧ Reaches s t) ∧
    (runFuel n s = .outOfFuel t → t.run.done = false ∧ Reaches s t ∧
      t.stats.cycleCount = s.stats.cycleCount + n)

/-- R23, R310: a step changes no register but the destination of the instruction WB retires. -/
def Obligations.OnlyWriteBackChangesRegisters : Prop :=
  ∀ s t : State, Inv s → s.run.done = false → step s = .next t →
    t.regs = (s.writeReg s.pipe.memWb.inst.rd s.pipe.memWb.out).regs

/-- R66, R308: a step changes memory only where MEM performs a store, and then only in the bytes
from its address on. -/
def Obligations.OnlyStoresChangeMemory : Prop :=
  ∀ s t : State, Inv s → s.run.done = false → step s = .next t →
    let ea := s.pipe.exMem.out.toNat
    (s.clock.stall.mem ≠ 0 ∨ s.pipe.exMem.inst.kind.isStore = false → t.mem = s.mem) ∧
    ∀ a, a < ea ∨ ea + 4 ≤ a → t.readByte a = s.readByte a

/-- R329: hits and misses together count the branches resolved in EX, one each, in every predictor
mode. A branch that EX executes in the cycle the run ends is not resolved. -/
def Obligations.HitsAndMissesCountBranches : Prop :=
  ∀ s t : State, Inv s → s.run.done = false → step s = .next t →
    t.stats.hits + t.stats.misses = s.stats.hits + s.stats.misses +
      (if s.pipe.idEx.inst.kind.isBranch = true ∧ s.clock.stall.ex = 0 ∧ s.run.halting = false ∧
          t.run.done = false then 1 else 0) ∧
    s.stats.hits ≤ t.stats.hits ∧ s.stats.misses ≤ t.stats.misses

/-- R293, R322 (decision D5): once halting, fetch, prediction and hazard detection stand still and
nothing new enters EX_MEM. -/
def Obligations.HaltingFreezesTheFrontEnd : Prop :=
  ∀ s t : State, s.run.halting = true → s.run.done = false → step s = .next t →
    t.run.halting = true ∧ t.pc = s.pc ∧ t.pred = s.pred ∧ t.ctl = s.ctl ∧
    t.stats = { s.stats with cycleCount := s.stats.cycleCount + 1 } ∧
    t.win = { s.win with dirty := t.win.dirty } ∧
    (t.pipe.exMem = s.pipe.exMem ∨ t.pipe.exMem = Latch.empty)

/-- R308, R371, R374 (decision D29): an access beyond capacity in MEM ends the run in that cycle:
the older instruction in WB completes, memory and every counter of the cycle's later steps stay as they were.
That a further step answers the fault is log 5 (DESIGN CHOICE). -/
def Obligations.MemoryFaultIsPrecise : Prop :=
  ∀ s : State, Inv s → s.run.done = false → s.clock.stall.mem = 0 →
    let k := s.pipe.exMem.inst.kind
    let ea := s.pipe.exMem.out
    let n := if [Kind.LB, .LBU, .SB].contains k then 1
      else if [Kind.LH, .LHU, .SH].contains k then 2 else 4
    k.isLoad = true ∨ k.isStore = true → s.cfg.memCapacity < ea.toNat + n →
    ∃ t, step s = .next t ∧ t.run.done = true ∧ t.run.faulted = some (.outOfBounds ea) ∧
      t.mem = s.mem ∧
      t.regs = (s.writeReg s.pipe.memWb.inst.rd s.pipe.memWb.out).regs ∧
      t.clock = s.clock ∧ t.pred = s.pred ∧ t.ctl = s.ctl ∧ t.fw.visEx = s.fw.visEx ∧
      t.fw.visMem = s.fw.visMem ∧ t.fw.pendMem = s.fw.pendMem ∧
      t.stats = { s.stats with cycleCount := s.stats.cycleCount + 1 } ∧ step t = .fault (.outOfBounds ea)

/-- R305, R321, R372, R373 (decision D29): an ILLEGAL instruction that EX executes in this cycle
ends the run two cycles later, when it reaches WB, with IllegalInstruction at its own fetch address, unless an
older instruction ended the run first.
That a further step answers the fault is log 5 (DESIGN CHOICE). -/
def Obligations.IllegalEndsTheRunAtWriteBack : Prop :=
  ∀ s s1 s2 s3 : State, ClockInv s → s.run.done = false → s.run.halting = false →
    s.clock.stall.ex = 0 → s.pipe.idEx.fault = none → s.pipe.idEx.inst.kind = .ILLEGAL →
    step s = .next s1 → step s1 = .next s2 → step s2 = .next s3 →
    s1.run.done = false → s2.run.done = false →
    s1.run.halting = true ∧ s3.run.done = true ∧
      s3.run.faulted = some (.illegalInstruction s.pipe.idEx.pc) ∧
      ∀ f, step s3 = .fault f ↔ f = .illegalInstruction s.pipe.idEx.pc

/-- R123, R290, R308, R310: an ALU-class instruction that EX executes in this cycle writes its
result, and nothing else, into the register file two cycles later, unless the run has ended before. -/
def Obligations.AluResultIsWrittenTwoCyclesAfterExecute : Prop :=
  ∀ (s s1 s2 s3 : State) (i : Instr), ClockInv s → s.run.done = false → s.run.halting = false →
    s.clock.stall.ex = 0 → s.pipe.idEx.fault = none →
    s.pipe.idEx.inst.instr s.pipe.idEx.word = some i → i.kind.isAlu = true →
    step s = .next s1 → step s1 = .next s2 → step s2 = .next s3 →
    s1.run.done = false → s2.run.done = false →
    ∃ e out, exec i ((propagate (beginCycle s)).inPhase .ex) = .next e ∧
      e.pipe.exMem.out = out ∧
      s3.regs = (s2.writeReg s.pipe.idEx.inst.rd out).regs

/-- R192, R308, R323, R374: a store that EX executes in this cycle touches memory three cycles
later and not before; within capacity it then changes exactly its own bytes, beyond capacity it ends
the run, unless the run has ended before. -/
def Obligations.StoreReachesMemoryThreeCyclesAfterExecute : Prop :=
  ∀ s s1 s2 s3 s4 : State, ClockInv s → MemoryInv s →
    s.run.done = false → s.run.halting = false → s.clock.stall.ex = 0 →
    s.pipe.idEx.fault = none → s.pipe.idEx.inst.kind.isStore = true →
    step s = .next s1 → step s1 = .next s2 → step s2 = .next s3 → step s3 = .next s4 →
    s1.run.done = false → s2.run.done = false → s3.run.done = false →
    let k := s.pipe.idEx.inst.kind
    let ea := (s.pipe.idEx.a + s.pipe.idEx.inst.imm).toNat
    let n := if k = .SB then 1 else if k = .SH then 2 else 4
    s2.mem = s1.mem ∧ s3.mem = s1.mem ∧
    (ea + n ≤ s.cfg.memCapacity →
      ∀ a, s4.readByte a = if ea ≤ a ∧ a < ea + n then
        s.pipe.idEx.b.extractLsb' (8 * (a - ea)) 8 else s1.readByte a) ∧
    (s.cfg.memCapacity < ea + n →
      s4.mem = s1.mem ∧ s4.run.done = true ∧
        s4.run.faulted = some (.outOfBounds (BitVec.ofNat 32 ea)))

/-! ## Invariants -/

/-- R226, R323, R344: the counters no rule requests stay 0, and the others keep the balance of
outstanding memory and hazard requests. -/
def Obligations.StepKeepsClockInv : Prop :=
  ∀ s t : State, ClockInv s → step s = .next t → ClockInv t

/-- R67, R72, R247 (the last two the spec's own derivations): memory stays canonical and within
capacity, while the window is valid its cursor stands at the pc, and every BHT entry, PHT entry and index
of the predictor stays in range (the BHT's size in the constant modes is log 23). -/
def Obligations.StepKeepsMemoryWindowAndPredictorInv : Prop :=
  ∀ s t : State, s.cfg.wf = true → MemoryInv s → WindowInv s → PredictorInv s →
    step s = .next t → MemoryInv t ∧ WindowInv t ∧ PredictorInv t

/-- R400, R401, R41 (decisions D7, D17, D36): a constructed machine has every register, latch,
counter, slot, table and signal at its reset value, its memory is the loaded image, as `loadImage` gives it
(log 20), and the invariant holds of it. -/
def Obligations.ConstructedMachineIsAtReset : Prop :=
  ∀ (c : Config) (text : List Char) (s : State), c.wf = true → construct c text = .ok s →
    Inv s ∧ s.cfg = c ∧ (∀ r, s.readReg r = 0) ∧ s.pc = 0 ∧
    s.pipe = ⟨.empty, .empty, .empty, .empty, .empty, .empty, .empty, .empty⟩ ∧
    s.clock = ⟨⟨0, 0, 0, 0, 0⟩, ⟨0, 0, 0, 0, 0⟩, 0⟩ ∧
    s.fw = ⟨⟨0, 0⟩, ⟨0, 0⟩, ⟨0, 0⟩, ⟨0, 0⟩⟩ ∧
    (∀ k, s.pred.counter k = 0 ∧ s.pred.history k = 0) ∧
    s.pred.pValid = false ∧ s.pred.pAddr = 0 ∧ s.pred.pCtr = 0 ∧ s.pred.pPred = false ∧
    s.ctl = ⟨false, false, 0⟩ ∧ s.run = ⟨false, false, none⟩ ∧
    s.win = ⟨false, 0, List.replicate c.windowWords none, 0, []⟩ ∧
    s.stats = ⟨0, 0, 0, 0⟩ ∧ loadImage c text = .ok (s.mem, s.logicalSize)

/-- The invariant holds of the machine after reset (R41, log 2). -/
def Obligations.ResetMeetsTheInvariant : Prop := Inv State.reset

/-- Every step keeps the invariant, from every state that meets it. Its latch clauses fix raw fields of
records that logs 6 and 11 (DEDUCED) settle, its predictor clause the BHT's size that log 23 gives the constant
modes. -/
def Obligations.StepKeepsTheInvariant : Prop :=
  ∀ s t : State, Inv s → step s = .next t → Inv t

/-- R376 (decision D35): no run of a constructed machine meets a ControllerInvariant fault. -/
def Obligations.ControllerInvariantIsUnreachable : Prop :=
  ∀ (c : Config) (text : List Char) (s t : State) (a : Word), c.wf = true →
    construct c text = .ok s → Reaches s t →
    t.run.faulted ≠ some (.controllerInvariant a) ∧ step t ≠ .fault (.controllerInvariant a)

/-! ## Construction and output -/

/-- R400 (decision D36): the value of a token, of digits of either case; byte tokens fill memory from
the fill point on, in order, and leave every other byte alone; a token that is no hexadecimal number, a byte
above 0xFF or beyond capacity and a marker above capacity make the image malformed (R377); and the logical size
is the last size a marker set, else the fill point, where it fits 32 bits (2^32 itself is log 20). -/
def Obligations.LoaderPlacesBytes : Prop :=
  (∀ digits : List (Char × Nat), digits ≠ [] →
    (∀ d ∈ digits, d ∈ "0123456789abcdef".toList.zipIdx ∨ d ∈ "0123456789ABCDEF".toList.zipIdx) →
    hexValue (digits.map Prod.fst) = some (digits.foldl (fun n d => 16 * n + d.2) 0)) ∧
  (∀ t : List Char, (t = [] ∨ ∃ c ∈ t, c ∉ "0123456789abcdefABCDEF".toList) → hexValue t = none) ∧
  (∀ (c : Config) (l : Loader) (tokens : List (List Char)) (bytes : List Nat),
    Memory.wf l.mem = true →
    tokens.map hexValue = bytes.map some → (∀ b ∈ bytes, b ≤ 0xFF) →
    (l.fill + bytes.length ≤ c.memCapacity →
      ∃ m, loadTokens c l tokens = .ok { l with mem := m, fill := l.fill + bytes.length } ∧
        Memory.wf m = true ∧
        ∀ a, memByte m a = if l.fill ≤ a ∧ a < l.fill + bytes.length then
          BitVec.ofNat 8 (bytes.getD (a - l.fill) 0) else memByte l.mem a) ∧
    (c.memCapacity < l.fill + bytes.length → l.fill ≤ c.memCapacity →
      loadTokens c l tokens = .error (.byteBeyondCapacity c.memCapacity)) ∧
    ∀ (t : List Char) (rest : List (List Char)),
      (t.head? ≠ some '@' → hexValue t = none → loadTokens c l (t :: rest) = .error .notHex) ∧
      (∀ v, t.head? ≠ some '@' → hexValue t = some v → 0xFF < v →
        loadTokens c l (t :: rest) = .error (.byteTooLarge v)) ∧
      (hexValue t = none → loadTokens c l (('@' :: t) :: rest) = .error .notHex) ∧
      ∀ v, hexValue t = some v →
        loadTokens c l (('@' :: t) :: rest) =
          if c.memCapacity < v then .error (.markerBeyondCapacity v)
          else if c.atMarker = .setSize then loadTokens c { l with size := some v } rest
          else loadTokens c { l with fill := v } rest) ∧
  ∀ (c : Config) (text : List Char),
    (∀ l, loadTokens c ⟨[], 0, none⟩ (splitTokens [] text) = .ok l →
      l.size.getD l.fill < 2 ^ 32 →
      ∃ size : Word, loadImage c text = .ok (l.mem, size) ∧ size.toNat = l.size.getD l.fill) ∧
    ∀ e, loadTokens c ⟨[], 0, none⟩ (splitTokens [] text) = .error e →
      loadImage c text = .error e ∧ construct c text = .error e

/-- R403 (decision D4): after a normal end the output is the low byte of the result register, in
decimal. That there is none before an end or after a faulted end is log 18 (DESIGN CHOICE). -/
def Obligations.ResultOutput : Prop :=
  ∀ s : State,
    (s.run.done = true → s.run.faulted = none →
      s.hostOutput = some (Nat.repr ((s.readReg s.cfg.resultReg).toNat % 256))) ∧
    (s.run.done = false ∨ s.run.faulted ≠ none → s.hostOutput = none)
end

