-- ==== Sys2Proof/Laws/Encoding.lean ====
section
/-! SUPPORT. The fields of an encoded word: what each format's extraction gives back (30_encoding.md
R83, R84). -/

namespace Sys2Proof

/-! ## encR -/

@[simp] theorem opcodeOf_encR (f7 : BitVec 7) (rs2 rs1 : RegIdx)
    (f3 : BitVec 3) (rd : RegIdx) (op : BitVec 7) :
    opcodeOf (encR f7 rs2 rs1 f3 rd op) = op := by
  unfold opcodeOf encR
  ext i h
  simp only [BitVec.getElem_extractLsb', BitVec.getLsbD_append]
  interval_cases i <;> simp

@[simp] theorem rdOf_encR (f7 : BitVec 7) (rs2 rs1 : RegIdx)
    (f3 : BitVec 3) (rd : RegIdx) (op : BitVec 7) :
    rdOf (encR f7 rs2 rs1 f3 rd op) = rd := by
  unfold rdOf encR
  ext i h
  simp only [BitVec.getElem_extractLsb', BitVec.getLsbD_append]
  interval_cases i <;> simp

@[simp] theorem funct3Of_encR (f7 : BitVec 7) (rs2 rs1 : RegIdx)
    (f3 : BitVec 3) (rd : RegIdx) (op : BitVec 7) :
    funct3Of (encR f7 rs2 rs1 f3 rd op) = f3 := by
  unfold funct3Of encR
  ext i h
  simp only [BitVec.getElem_extractLsb', BitVec.getLsbD_append]
  interval_cases i <;> simp

@[simp] theorem rs1Of_encR (f7 : BitVec 7) (rs2 rs1 : RegIdx)
    (f3 : BitVec 3) (rd : RegIdx) (op : BitVec 7) :
    rs1Of (encR f7 rs2 rs1 f3 rd op) = rs1 := by
  unfold rs1Of encR
  ext i h
  simp only [BitVec.getElem_extractLsb', BitVec.getLsbD_append]
  interval_cases i <;> simp

@[simp] theorem rs2Of_encR (f7 : BitVec 7) (rs2 rs1 : RegIdx)
    (f3 : BitVec 3) (rd : RegIdx) (op : BitVec 7) :
    rs2Of (encR f7 rs2 rs1 f3 rd op) = rs2 := by
  unfold rs2Of encR
  ext i h
  simp only [BitVec.getElem_extractLsb', BitVec.getLsbD_append]
  interval_cases i <;> simp

@[simp] theorem shamtOf_encR (f7 : BitVec 7) (rs2 rs1 : RegIdx)
    (f3 : BitVec 3) (rd : RegIdx) (op : BitVec 7) :
    shamtOf (encR f7 rs2 rs1 f3 rd op) = rs2 := by
  unfold shamtOf encR
  ext i h
  simp only [BitVec.getElem_extractLsb', BitVec.getLsbD_append]
  interval_cases i <;> simp

@[simp] theorem funct7Of_encR (f7 : BitVec 7) (rs2 rs1 : RegIdx)
    (f3 : BitVec 3) (rd : RegIdx) (op : BitVec 7) :
    funct7Of (encR f7 rs2 rs1 f3 rd op) = f7 := by
  unfold funct7Of encR
  ext i h
  simp only [BitVec.getElem_extractLsb', BitVec.getLsbD_append]
  interval_cases i <;> simp

/-! ## encI -/

@[simp] theorem opcodeOf_encI (imm : Word) (rs1 : RegIdx)
    (f3 : BitVec 3) (rd : RegIdx) (op : BitVec 7) :
    opcodeOf (encI imm rs1 f3 rd op) = op := by
  unfold opcodeOf encI
  ext i h
  simp only [BitVec.getElem_extractLsb', BitVec.getLsbD_append]
  interval_cases i <;> simp

@[simp] theorem rdOf_encI (imm : Word) (rs1 : RegIdx)
    (f3 : BitVec 3) (rd : RegIdx) (op : BitVec 7) :
    rdOf (encI imm rs1 f3 rd op) = rd := by
  unfold rdOf encI
  ext i h
  simp only [BitVec.getElem_extractLsb', BitVec.getLsbD_append]
  interval_cases i <;> simp

@[simp] theorem funct3Of_encI (imm : Word) (rs1 : RegIdx)
    (f3 : BitVec 3) (rd : RegIdx) (op : BitVec 7) :
    funct3Of (encI imm rs1 f3 rd op) = f3 := by
  unfold funct3Of encI
  ext i h
  simp only [BitVec.getElem_extractLsb', BitVec.getLsbD_append]
  interval_cases i <;> simp

@[simp] theorem rs1Of_encI (imm : Word) (rs1 : RegIdx)
    (f3 : BitVec 3) (rd : RegIdx) (op : BitVec 7) :
    rs1Of (encI imm rs1 f3 rd op) = rs1 := by
  unfold rs1Of encI
  ext i h
  simp only [BitVec.getElem_extractLsb', BitVec.getLsbD_append]
  interval_cases i <;> simp

/-! ## encS -/

@[simp] theorem opcodeOf_encS (imm : Word) (rs2 rs1 : RegIdx) (f3 : BitVec 3) (op : BitVec 7) :
    opcodeOf (encS imm rs2 rs1 f3 op) = op := by
  unfold opcodeOf encS
  ext i h
  simp only [BitVec.getElem_extractLsb', BitVec.getLsbD_append]
  interval_cases i <;> simp

@[simp] theorem funct3Of_encS (imm : Word) (rs2 rs1 : RegIdx) (f3 : BitVec 3) (op : BitVec 7) :
    funct3Of (encS imm rs2 rs1 f3 op) = f3 := by
  unfold funct3Of encS
  ext i h
  simp only [BitVec.getElem_extractLsb', BitVec.getLsbD_append]
  interval_cases i <;> simp

@[simp] theorem rs1Of_encS (imm : Word) (rs2 rs1 : RegIdx) (f3 : BitVec 3) (op : BitVec 7) :
    rs1Of (encS imm rs2 rs1 f3 op) = rs1 := by
  unfold rs1Of encS
  ext i h
  simp only [BitVec.getElem_extractLsb', BitVec.getLsbD_append]
  interval_cases i <;> simp

@[simp] theorem rs2Of_encS (imm : Word) (rs2 rs1 : RegIdx) (f3 : BitVec 3) (op : BitVec 7) :
    rs2Of (encS imm rs2 rs1 f3 op) = rs2 := by
  unfold rs2Of encS
  ext i h
  simp only [BitVec.getElem_extractLsb', BitVec.getLsbD_append]
  interval_cases i <;> simp

/-! ## encB -/

@[simp] theorem opcodeOf_encB (imm : Word) (rs2 rs1 : RegIdx) (f3 : BitVec 3) (op : BitVec 7) :
    opcodeOf (encB imm rs2 rs1 f3 op) = op := by
  unfold opcodeOf encB
  ext i h
  simp only [BitVec.getElem_extractLsb', BitVec.getLsbD_append]
  interval_cases i <;> simp

@[simp] theorem funct3Of_encB (imm : Word) (rs2 rs1 : RegIdx) (f3 : BitVec 3) (op : BitVec 7) :
    funct3Of (encB imm rs2 rs1 f3 op) = f3 := by
  unfold funct3Of encB
  ext i h
  simp only [BitVec.getElem_extractLsb', BitVec.getLsbD_append]
  interval_cases i <;> simp

@[simp] theorem rs1Of_encB (imm : Word) (rs2 rs1 : RegIdx) (f3 : BitVec 3) (op : BitVec 7) :
    rs1Of (encB imm rs2 rs1 f3 op) = rs1 := by
  unfold rs1Of encB
  ext i h
  simp only [BitVec.getElem_extractLsb', BitVec.getLsbD_append]
  interval_cases i <;> simp

@[simp] theorem rs2Of_encB (imm : Word) (rs2 rs1 : RegIdx) (f3 : BitVec 3) (op : BitVec 7) :
    rs2Of (encB imm rs2 rs1 f3 op) = rs2 := by
  unfold rs2Of encB
  ext i h
  simp only [BitVec.getElem_extractLsb', BitVec.getLsbD_append]
  interval_cases i <;> simp

/-! ## encU -/

@[simp] theorem opcodeOf_encU (imm : Word) (rd : RegIdx) (op : BitVec 7) :
    opcodeOf (encU imm rd op) = op := by
  unfold opcodeOf encU
  ext i h
  simp only [BitVec.getElem_extractLsb', BitVec.getLsbD_append]
  interval_cases i <;> simp

@[simp] theorem rdOf_encU (imm : Word) (rd : RegIdx) (op : BitVec 7) :
    rdOf (encU imm rd op) = rd := by
  unfold rdOf encU
  ext i h
  simp only [BitVec.getElem_extractLsb', BitVec.getLsbD_append]
  interval_cases i <;> simp

/-! ## encJ -/

@[simp] theorem opcodeOf_encJ (imm : Word) (rd : RegIdx) (op : BitVec 7) :
    opcodeOf (encJ imm rd op) = op := by
  unfold opcodeOf encJ
  ext i h
  simp only [BitVec.getElem_extractLsb', BitVec.getLsbD_append]
  interval_cases i <;> simp

@[simp] theorem rdOf_encJ (imm : Word) (rd : RegIdx) (op : BitVec 7) :
    rdOf (encJ imm rd op) = rd := by
  unfold rdOf encJ
  ext i h
  simp only [BitVec.getElem_extractLsb', BitVec.getLsbD_append]
  interval_cases i <;> simp

/-! ## Immediates: a value the format holds comes back -/

theorem immIOf_encI (imm : Word) (rs1 : RegIdx) (f3 : BitVec 3) (rd : RegIdx) (op : BitVec 7)
    (h : imm12 imm = true) :
    immIOf (encI imm rs1 f3 rd op) = imm := by
  have h := eq_of_beq h
  refine Eq.trans ?_ h
  unfold immIOf encI
  congr 1
  ext i hi
  simp only [BitVec.getElem_extractLsb', BitVec.getLsbD_append,
    BitVec.getLsbD_extractLsb']
  interval_cases i <;> simp

theorem immSOf_encS (imm : Word) (rs2 rs1 : RegIdx) (f3 : BitVec 3) (op : BitVec 7)
    (h : imm12 imm = true) :
    immSOf (encS imm rs2 rs1 f3 op) = imm := by
  have h := eq_of_beq h
  refine Eq.trans ?_ h
  unfold immSOf encS
  congr 1
  ext i hi
  simp only [BitVec.getElem_append, BitVec.getElem_extractLsb', BitVec.getLsbD_append,
    BitVec.getLsbD_extractLsb']
  interval_cases i <;> simp

theorem immBOf_encB (imm : Word) (rs2 rs1 : RegIdx) (f3 : BitVec 3) (op : BitVec 7)
    (h : immB imm = true) :
    immBOf (encB imm rs2 rs1 f3 op) = imm := by
  have h := eq_of_beq h
  refine Eq.trans ?_ h
  unfold immBOf encB
  congr 1
  ext i hi
  simp only [BitVec.getElem_append, BitVec.getElem_extractLsb', BitVec.getLsbD_append,
    BitVec.getLsbD_extractLsb']
  interval_cases i <;> simp

theorem immUOf_encU (imm : Word) (rd : RegIdx) (op : BitVec 7) (h : immU imm = true) :
    immUOf (encU imm rd op) = imm := by
  have h := eq_of_beq h
  refine Eq.trans ?_ h
  unfold immUOf encU
  congr 1
  ext i hi
  simp only [BitVec.getElem_extractLsb', BitVec.getLsbD_append,
    BitVec.getLsbD_extractLsb']
  interval_cases i <;> simp

theorem immJOf_encJ (imm : Word) (rd : RegIdx) (op : BitVec 7) (h : immJ imm = true) :
    immJOf (encJ imm rd op) = imm := by
  have h := eq_of_beq h
  refine Eq.trans ?_ h
  unfold immJOf encJ
  congr 1
  ext i hi
  simp only [BitVec.getElem_append, BitVec.getElem_extractLsb', BitVec.getLsbD_append,
    BitVec.getLsbD_extractLsb']
  interval_cases i <;> simp

/-! ## A word by its fields, and the rows of the opcode table as conditions on fields -/

theorem word_split (w : Word) :
    w = funct7Of w ++ rs2Of w ++ rs1Of w ++ funct3Of w ++ rdOf w ++ opcodeOf w := by
  unfold funct7Of rs2Of rs1Of funct3Of rdOf opcodeOf
  apply BitVec.eq_of_getLsbD_eq
  intro i hi
  simp only [BitVec.getLsbD_append, BitVec.getLsbD_extractLsb']
  interval_cases i <;> simp

theorem and_opcode (w : Word) : w &&& 0x0000007F#32 = 0#25 ++ opcodeOf w := by
  unfold opcodeOf
  apply BitVec.eq_of_getLsbD_eq
  intro i hi
  simp only [BitVec.getLsbD_append, BitVec.getLsbD_extractLsb', BitVec.getLsbD_and]
  interval_cases i <;> simp

theorem and_funct3 (w : Word) :
    w &&& 0x0000707F#32 = 0#17 ++ funct3Of w ++ 0#5 ++ opcodeOf w := by
  unfold opcodeOf funct3Of
  apply BitVec.eq_of_getLsbD_eq
  intro i hi
  simp only [BitVec.getLsbD_append, BitVec.getLsbD_extractLsb', BitVec.getLsbD_and]
  interval_cases i <;> simp

theorem and_funct7 (w : Word) :
    w &&& 0xFE00707F#32 = funct7Of w ++ 0#10 ++ funct3Of w ++ 0#5 ++ opcodeOf w := by
  unfold opcodeOf funct3Of funct7Of
  apply BitVec.eq_of_getLsbD_eq
  intro i hi
  simp only [BitVec.getLsbD_append, BitVec.getLsbD_extractLsb', BitVec.getLsbD_and]
  interval_cases i <;> simp

theorem row_opcode {w : Word} {op : BitVec 7} :
    w &&& 0x0000007F#32 = 0#25 ++ op ↔ opcodeOf w = op := by
  rw [and_opcode]
  constructor
  · intro h
    apply BitVec.eq_of_getLsbD_eq
    intro i hi
    have := congrArg (fun x => BitVec.getLsbD x i) h
    simpa only [BitVec.getLsbD_append, hi, if_true] using this
  · rintro rfl; rfl

theorem row_funct3 {w : Word} {f3 : BitVec 3} {op : BitVec 7} :
    w &&& 0x0000707F#32 = 0#17 ++ f3 ++ 0#5 ++ op ↔ funct3Of w = f3 ∧ opcodeOf w = op := by
  rw [and_funct3]
  constructor
  · intro h
    constructor
    · apply BitVec.eq_of_getLsbD_eq
      intro i hi
      have := congrArg (fun x => BitVec.getLsbD x (i + 12)) h
      simp only [BitVec.getLsbD_append] at this
      interval_cases i <;> simpa using this
    · apply BitVec.eq_of_getLsbD_eq
      intro i hi
      have := congrArg (fun x => BitVec.getLsbD x i) h
      simpa only [BitVec.getLsbD_append, hi, if_true] using this
  · rintro ⟨rfl, rfl⟩; rfl

theorem row_funct7 {w : Word} {f7 : BitVec 7} {f3 : BitVec 3} {op : BitVec 7} :
    w &&& 0xFE00707F#32 = f7 ++ 0#10 ++ f3 ++ 0#5 ++ op ↔
      funct7Of w = f7 ∧ funct3Of w = f3 ∧ opcodeOf w = op := by
  rw [and_funct7]
  constructor
  · intro h
    refine ⟨?_, ?_, ?_⟩
    · apply BitVec.eq_of_getLsbD_eq
      intro i hi
      have := congrArg (fun x => BitVec.getLsbD x (i + 25)) h
      simp only [BitVec.getLsbD_append] at this
      interval_cases i <;> simpa using this
    · apply BitVec.eq_of_getLsbD_eq
      intro i hi
      have := congrArg (fun x => BitVec.getLsbD x (i + 12)) h
      simp only [BitVec.getLsbD_append] at this
      interval_cases i <;> simpa using this
    · apply BitVec.eq_of_getLsbD_eq
      intro i hi
      have := congrArg (fun x => BitVec.getLsbD x i) h
      simpa only [BitVec.getLsbD_append, hi, if_true] using this
  · rintro ⟨rfl, rfl, rfl⟩; rfl

/-! ## A word written field by field, as the encoding of its immediate -/

theorem low_signExtend (j : BitVec 12) : (j.signExtend 32).extractLsb' 0 12 = j := by
  apply BitVec.eq_of_getLsbD_eq
  intro i hi
  simp only [BitVec.getLsbD_extractLsb', BitVec.getLsbD_signExtend]
  simp [hi, show i < 32 by omega]

theorem encI_eq (j : BitVec 12) (rs1 : RegIdx) (f3 : BitVec 3) (rd : RegIdx) (op : BitVec 7) :
    j ++ rs1 ++ f3 ++ rd ++ op = encI (j.signExtend 32) rs1 f3 rd op := by
  rw [encI, low_signExtend]

theorem imm12_signExtend (j : BitVec 12) : imm12 (j.signExtend 32) = true := by
  simp [imm12, low_signExtend]

theorem encS_eq (j : BitVec 12) (rs2 rs1 : RegIdx) (f3 : BitVec 3) (op : BitVec 7) :
    j.extractLsb' 5 7 ++ rs2 ++ rs1 ++ f3 ++ j.extractLsb' 0 5 ++ op =
      encS (j.signExtend 32) rs2 rs1 f3 op := by
  have a : (j.signExtend 32).extractLsb' 5 7 = j.extractLsb' 5 7 := by
    apply BitVec.eq_of_getLsbD_eq
    intro i hi
    simp only [BitVec.getLsbD_extractLsb', BitVec.getLsbD_signExtend]
    interval_cases i <;> simp
  have b : (j.signExtend 32).extractLsb' 0 5 = j.extractLsb' 0 5 := by
    apply BitVec.eq_of_getLsbD_eq
    intro i hi
    simp only [BitVec.getLsbD_extractLsb', BitVec.getLsbD_signExtend]
    interval_cases i <;> simp
  rw [encS, a, b]

theorem immB_even (j : BitVec 12) : immB ((j ++ 0#1).signExtend 32) = true := by
  have : ((j ++ 0#1).signExtend 32).extractLsb' 1 12 = j := by
    apply BitVec.eq_of_getLsbD_eq
    intro i hi
    simp only [BitVec.getLsbD_extractLsb', BitVec.getLsbD_signExtend, BitVec.getLsbD_append]
    interval_cases i <;> simp
  simp [immB, this]

theorem encB_eq (j : BitVec 12) (rs2 rs1 : RegIdx) (f3 : BitVec 3) (op : BitVec 7) :
    j.extractLsb' 11 1 ++ j.extractLsb' 4 6 ++ rs2 ++ rs1 ++ f3 ++
      j.extractLsb' 0 4 ++ j.extractLsb' 10 1 ++ op = encB ((j ++ 0#1).signExtend 32) rs2 rs1 f3 op := by
  have e : ∀ a n b : Nat, a = b + 1 → b + n ≤ 12 → 
      ((j ++ 0#1).signExtend 32).extractLsb' a n = j.extractLsb' b n := by
    intro a n b h hb
    subst h
    apply BitVec.eq_of_getLsbD_eq
    intro i hi
    simp only [BitVec.getLsbD_extractLsb', BitVec.getLsbD_signExtend, BitVec.getLsbD_append]
    simp [hi, show b + 1 + i < 32 by omega, show b + 1 + i < 13 by omega,
      show ¬ (b + 1 + i < 1) by omega, show b + 1 + i - 1 = b + i by omega]
  rw [encB, e 12 1 11 rfl (by omega), e 5 6 4 rfl (by omega), e 1 4 0 rfl (by omega),
    e 11 1 10 rfl (by omega)]

theorem immJ_even (j : BitVec 20) : immJ ((j ++ 0#1).signExtend 32) = true := by
  have : ((j ++ 0#1).signExtend 32).extractLsb' 1 20 = j := by
    apply BitVec.eq_of_getLsbD_eq
    intro i hi
    simp only [BitVec.getLsbD_extractLsb', BitVec.getLsbD_signExtend, BitVec.getLsbD_append]
    interval_cases i <;> simp
  simp [immJ, this]

theorem encJ_eq (j : BitVec 20) (rd : RegIdx) (op : BitVec 7) :
    j.extractLsb' 19 1 ++ j.extractLsb' 0 10 ++ j.extractLsb' 10 1 ++ j.extractLsb' 11 8 ++ rd ++ op =
      encJ ((j ++ 0#1).signExtend 32) rd op := by
  have e : ∀ a n b : Nat, a = b + 1 → b + n ≤ 20 → 
      ((j ++ 0#1).signExtend 32).extractLsb' a n = j.extractLsb' b n := by
    intro a n b h hb
    subst h
    apply BitVec.eq_of_getLsbD_eq
    intro i hi
    simp only [BitVec.getLsbD_extractLsb', BitVec.getLsbD_signExtend, BitVec.getLsbD_append]
    simp [hi, show b + 1 + i < 32 by omega, show b + 1 + i < 21 by omega,
      show ¬ (b + 1 + i < 1) by omega, show b + 1 + i - 1 = b + i by omega]
  rw [encJ, e 20 1 19 rfl (by omega), e 1 10 0 rfl (by omega), e 11 1 10 rfl (by omega),
    e 12 8 11 rfl (by omega)]

theorem encR_eq (f7 : BitVec 7) (rs2 rs1 : RegIdx) (f3 : BitVec 3) (rd : RegIdx) (op : BitVec 7) :
    f7 ++ rs2 ++ rs1 ++ f3 ++ rd ++ op = encR f7 rs2 rs1 f3 rd op := rfl

theorem high_append (j : BitVec 20) : (j ++ 0#12 : Word).extractLsb' 12 20 = j := by
  apply BitVec.eq_of_getLsbD_eq
  intro i hi
  simp only [BitVec.getLsbD_extractLsb', BitVec.getLsbD_append]
  simp [hi]

theorem encU_eq (j : BitVec 20) (rd : RegIdx) (op : BitVec 7) :
    j ++ rd ++ op = encU (j ++ 0#12) rd op := by
  rw [encU, high_append]

theorem immU_append (j : BitVec 20) : immU (j ++ 0#12) = true := by
  simp [immU, high_append]

/-! ## What the decoder can answer, said once (R86 to R92) -/

/-- The opcode table's rows as conditions on the fields of a word: the word matches none. -/
theorem no_row_iff (w : Word) :
    (∀ r ∈ opcodeTable, w &&& r.mask ≠ r.pattern) ↔
      ¬(opcodeOf w = 0x37#7) ∧
      ¬(opcodeOf w = 0x17#7) ∧
      ¬(opcodeOf w = 0x6F#7) ∧
      ¬(funct3Of w = 0#3 ∧ opcodeOf w = 0x67#7) ∧
      ¬(funct3Of w = 0#3 ∧ opcodeOf w = 0x63#7) ∧
      ¬(funct3Of w = 1#3 ∧ opcodeOf w = 0x63#7) ∧
      ¬(funct3Of w = 4#3 ∧ opcodeOf w = 0x63#7) ∧
      ¬(funct3Of w = 5#3 ∧ opcodeOf w = 0x63#7) ∧
      ¬(funct3Of w = 6#3 ∧ opcodeOf w = 0x63#7) ∧
      ¬(funct3Of w = 7#3 ∧ opcodeOf w = 0x63#7) ∧
      ¬(funct3Of w = 0#3 ∧ opcodeOf w = 0x03#7) ∧
      ¬(funct3Of w = 1#3 ∧ opcodeOf w = 0x03#7) ∧
      ¬(funct3Of w = 2#3 ∧ opcodeOf w = 0x03#7) ∧
      ¬(funct3Of w = 4#3 ∧ opcodeOf w = 0x03#7) ∧
      ¬(funct3Of w = 5#3 ∧ opcodeOf w = 0x03#7) ∧
      ¬(funct3Of w = 0#3 ∧ opcodeOf w = 0x23#7) ∧
      ¬(funct3Of w = 1#3 ∧ opcodeOf w = 0x23#7) ∧
      ¬(funct3Of w = 2#3 ∧ opcodeOf w = 0x23#7) ∧
      ¬(funct3Of w = 0#3 ∧ opcodeOf w = 0x13#7) ∧
      ¬(funct3Of w = 2#3 ∧ opcodeOf w = 0x13#7) ∧
      ¬(funct3Of w = 3#3 ∧ opcodeOf w = 0x13#7) ∧
      ¬(funct3Of w = 4#3 ∧ opcodeOf w = 0x13#7) ∧
      ¬(funct3Of w = 6#3 ∧ opcodeOf w = 0x13#7) ∧
      ¬(funct3Of w = 7#3 ∧ opcodeOf w = 0x13#7) ∧
      ¬(funct7Of w = 0x00#7 ∧ funct3Of w = 1#3 ∧ opcodeOf w = 0x13#7) ∧
      ¬(funct7Of w = 0x00#7 ∧ funct3Of w = 5#3 ∧ opcodeOf w = 0x13#7) ∧
      ¬(funct7Of w = 0x20#7 ∧ funct3Of w = 5#3 ∧ opcodeOf w = 0x13#7) ∧
      ¬(funct7Of w = 0x00#7 ∧ funct3Of w = 0#3 ∧ opcodeOf w = 0x33#7) ∧
      ¬(funct7Of w = 0x20#7 ∧ funct3Of w = 0#3 ∧ opcodeOf w = 0x33#7) ∧
      ¬(funct7Of w = 0x00#7 ∧ funct3Of w = 1#3 ∧ opcodeOf w = 0x33#7) ∧
      ¬(funct7Of w = 0x00#7 ∧ funct3Of w = 2#3 ∧ opcodeOf w = 0x33#7) ∧
      ¬(funct7Of w = 0x00#7 ∧ funct3Of w = 3#3 ∧ opcodeOf w = 0x33#7) ∧
      ¬(funct7Of w = 0x00#7 ∧ funct3Of w = 4#3 ∧ opcodeOf w = 0x33#7) ∧
      ¬(funct7Of w = 0x00#7 ∧ funct3Of w = 5#3 ∧ opcodeOf w = 0x33#7) ∧
      ¬(funct7Of w = 0x20#7 ∧ funct3Of w = 5#3 ∧ opcodeOf w = 0x33#7) ∧
      ¬(funct7Of w = 0x00#7 ∧ funct3Of w = 6#3 ∧ opcodeOf w = 0x33#7) ∧
      ¬(funct7Of w = 0x00#7 ∧ funct3Of w = 7#3 ∧ opcodeOf w = 0x33#7) := by
  unfold opcodeTable
  simp only [List.cons_append, List.nil_append, List.forall_mem_cons, List.not_mem_nil,
    false_implies, implies_true, and_true]
  exact and_congr (not_congr (row_opcode (op := 0x37#7))) <|
    and_congr (not_congr (row_opcode (op := 0x17#7))) <|
    and_congr (not_congr (row_opcode (op := 0x6F#7))) <|
    and_congr (not_congr (row_funct3 (f3 := 0#3) (op := 0x67#7))) <|
    and_congr (not_congr (row_funct3 (f3 := 0#3) (op := 0x63#7))) <|
    and_congr (not_congr (row_funct3 (f3 := 1#3) (op := 0x63#7))) <|
    and_congr (not_congr (row_funct3 (f3 := 4#3) (op := 0x63#7))) <|
    and_congr (not_congr (row_funct3 (f3 := 5#3) (op := 0x63#7))) <|
    and_congr (not_congr (row_funct3 (f3 := 6#3) (op := 0x63#7))) <|
    and_congr (not_congr (row_funct3 (f3 := 7#3) (op := 0x63#7))) <|
    and_congr (not_congr (row_funct3 (f3 := 0#3) (op := 0x03#7))) <|
    and_congr (not_congr (row_funct3 (f3 := 1#3) (op := 0x03#7))) <|
    and_congr (not_congr (row_funct3 (f3 := 2#3) (op := 0x03#7))) <|
    and_congr (not_congr (row_funct3 (f3 := 4#3) (op := 0x03#7))) <|
    and_congr (not_congr (row_funct3 (f3 := 5#3) (op := 0x03#7))) <|
    and_congr (not_congr (row_funct3 (f3 := 0#3) (op := 0x23#7))) <|
    and_congr (not_congr (row_funct3 (f3 := 1#3) (op := 0x23#7))) <|
    and_congr (not_congr (row_funct3 (f3 := 2#3) (op := 0x23#7))) <|
    and_congr (not_congr (row_funct3 (f3 := 0#3) (op := 0x13#7))) <|
    and_congr (not_congr (row_funct3 (f3 := 2#3) (op := 0x13#7))) <|
    and_congr (not_congr (row_funct3 (f3 := 3#3) (op := 0x13#7))) <|
    and_congr (not_congr (row_funct3 (f3 := 4#3) (op := 0x13#7))) <|
    and_congr (not_congr (row_funct3 (f3 := 6#3) (op := 0x13#7))) <|
    and_congr (not_congr (row_funct3 (f3 := 7#3) (op := 0x13#7))) <|
    and_congr (not_congr (row_funct7 (f7 := 0x00#7) (f3 := 1#3) (op := 0x13#7))) <|
    and_congr (not_congr (row_funct7 (f7 := 0x00#7) (f3 := 5#3) (op := 0x13#7))) <|
    and_congr (not_congr (row_funct7 (f7 := 0x20#7) (f3 := 5#3) (op := 0x13#7))) <|
    and_congr (not_congr (row_funct7 (f7 := 0x00#7) (f3 := 0#3) (op := 0x33#7))) <|
    and_congr (not_congr (row_funct7 (f7 := 0x20#7) (f3 := 0#3) (op := 0x33#7))) <|
    and_congr (not_congr (row_funct7 (f7 := 0x00#7) (f3 := 1#3) (op := 0x33#7))) <|
    and_congr (not_congr (row_funct7 (f7 := 0x00#7) (f3 := 2#3) (op := 0x33#7))) <|
    and_congr (not_congr (row_funct7 (f7 := 0x00#7) (f3 := 3#3) (op := 0x33#7))) <|
    and_congr (not_congr (row_funct7 (f7 := 0x00#7) (f3 := 4#3) (op := 0x33#7))) <|
    and_congr (not_congr (row_funct7 (f7 := 0x00#7) (f3 := 5#3) (op := 0x33#7))) <|
    and_congr (not_congr (row_funct7 (f7 := 0x20#7) (f3 := 5#3) (op := 0x33#7))) <|
    and_congr (not_congr (row_funct7 (f7 := 0x00#7) (f3 := 6#3) (op := 0x33#7))) <|
    (not_congr (row_funct7 (f7 := 0x00#7) (f3 := 7#3) (op := 0x33#7)))

theorem ite_rec {P : Instr → Prop} {c : Prop} [Decidable c] {a b : Instr} (ha : c → P a)
    (hb : ¬c → P b) : P (if c then a else b) := by
  split
  · exact ha ‹c›
  · exact hb ‹¬c›

/-- What the decoder can answer: HALT for HALT_WORD, else the instruction of the row that matches,
with its operands from the word's fields, else ILLEGAL. -/
theorem decodeWord_cases {P : Instr → Prop} (h w : Word) (halt : w = h → P .halt)
    (lui : w ≠ h → opcodeOf w = 0x37#7 → P (.lui (rdOf w) (immUOf w)))
    (auipc : w ≠ h → opcodeOf w = 0x17#7 → P (.auipc (rdOf w) (immUOf w)))
    (jal : w ≠ h → opcodeOf w = 0x6F#7 → P (.jal (rdOf w) (immJOf w)))
    (jalr : w ≠ h → opcodeOf w = 0x67#7 → funct3Of w = 0#3 → P (.jalr (rdOf w) (rs1Of w) (immIOf w)))
    (beq : w ≠ h → opcodeOf w = 0x63#7 → funct3Of w = 0#3 → P (.beq (rs1Of w) (rs2Of w) (immBOf w)))
    (bne : w ≠ h → opcodeOf w = 0x63#7 → funct3Of w = 1#3 → P (.bne (rs1Of w) (rs2Of w) (immBOf w)))
    (blt : w ≠ h → opcodeOf w = 0x63#7 → funct3Of w = 4#3 → P (.blt (rs1Of w) (rs2Of w) (immBOf w)))
    (bge : w ≠ h → opcodeOf w = 0x63#7 → funct3Of w = 5#3 → P (.bge (rs1Of w) (rs2Of w) (immBOf w)))
    (bltu : w ≠ h → opcodeOf w = 0x63#7 → funct3Of w = 6#3 → P (.bltu (rs1Of w) (rs2Of w) (immBOf w)))
    (bgeu : w ≠ h → opcodeOf w = 0x63#7 → funct3Of w = 7#3 → P (.bgeu (rs1Of w) (rs2Of w) (immBOf w)))
    (lb : w ≠ h → opcodeOf w = 0x03#7 → funct3Of w = 0#3 → P (.lb (rdOf w) (rs1Of w) (immIOf w)))
    (lh : w ≠ h → opcodeOf w = 0x03#7 → funct3Of w = 1#3 → P (.lh (rdOf w) (rs1Of w) (immIOf w)))
    (lw : w ≠ h → opcodeOf w = 0x03#7 → funct3Of w = 2#3 → P (.lw (rdOf w) (rs1Of w) (immIOf w)))
    (lbu : w ≠ h → opcodeOf w = 0x03#7 → funct3Of w = 4#3 → P (.lbu (rdOf w) (rs1Of w) (immIOf w)))
    (lhu : w ≠ h → opcodeOf w = 0x03#7 → funct3Of w = 5#3 → P (.lhu (rdOf w) (rs1Of w) (immIOf w)))
    (sb : w ≠ h → opcodeOf w = 0x23#7 → funct3Of w = 0#3 → P (.sb (rs1Of w) (rs2Of w) (immSOf w)))
    (sh : w ≠ h → opcodeOf w = 0x23#7 → funct3Of w = 1#3 → P (.sh (rs1Of w) (rs2Of w) (immSOf w)))
    (sw : w ≠ h → opcodeOf w = 0x23#7 → funct3Of w = 2#3 → P (.sw (rs1Of w) (rs2Of w) (immSOf w)))
    (addi : w ≠ h → opcodeOf w = 0x13#7 → funct3Of w = 0#3 → P (.addi (rdOf w) (rs1Of w) (immIOf w)))
    (slti : w ≠ h → opcodeOf w = 0x13#7 → funct3Of w = 2#3 → P (.slti (rdOf w) (rs1Of w) (immIOf w)))
    (sltiu : w ≠ h → opcodeOf w = 0x13#7 → funct3Of w = 3#3 → P (.sltiu (rdOf w) (rs1Of w) (immIOf w)))
    (xori : w ≠ h → opcodeOf w = 0x13#7 → funct3Of w = 4#3 → P (.xori (rdOf w) (rs1Of w) (immIOf w)))
    (ori : w ≠ h → opcodeOf w = 0x13#7 → funct3Of w = 6#3 → P (.ori (rdOf w) (rs1Of w) (immIOf w)))
    (andi : w ≠ h → opcodeOf w = 0x13#7 → funct3Of w = 7#3 → P (.andi (rdOf w) (rs1Of w) (immIOf w)))
    (slli : w ≠ h → opcodeOf w = 0x13#7 → funct3Of w = 1#3 → funct7Of w = 0x00#7 → P (.slli (rdOf w) (rs1Of w) (shamtOf w)))
    (srli : w ≠ h → opcodeOf w = 0x13#7 → funct3Of w = 5#3 → funct7Of w = 0x00#7 → P (.srli (rdOf w) (rs1Of w) (shamtOf w)))
    (srai : w ≠ h → opcodeOf w = 0x13#7 → funct3Of w = 5#3 → funct7Of w = 0x20#7 → P (.srai (rdOf w) (rs1Of w) (shamtOf w)))
    (add : w ≠ h → opcodeOf w = 0x33#7 → funct3Of w = 0#3 → funct7Of w = 0x00#7 → P (.add (rdOf w) (rs1Of w) (rs2Of w)))
    (sub : w ≠ h → opcodeOf w = 0x33#7 → funct3Of w = 0#3 → funct7Of w = 0x20#7 → P (.sub (rdOf w) (rs1Of w) (rs2Of w)))
    (sll : w ≠ h → opcodeOf w = 0x33#7 → funct3Of w = 1#3 → funct7Of w = 0x00#7 → P (.sll (rdOf w) (rs1Of w) (rs2Of w)))
    (slt : w ≠ h → opcodeOf w = 0x33#7 → funct3Of w = 2#3 → funct7Of w = 0x00#7 → P (.slt (rdOf w) (rs1Of w) (rs2Of w)))
    (sltu : w ≠ h → opcodeOf w = 0x33#7 → funct3Of w = 3#3 → funct7Of w = 0x00#7 → P (.sltu (rdOf w) (rs1Of w) (rs2Of w)))
    (xor : w ≠ h → opcodeOf w = 0x33#7 → funct3Of w = 4#3 → funct7Of w = 0x00#7 → P (.xor (rdOf w) (rs1Of w) (rs2Of w)))
    (srl : w ≠ h → opcodeOf w = 0x33#7 → funct3Of w = 5#3 → funct7Of w = 0x00#7 → P (.srl (rdOf w) (rs1Of w) (rs2Of w)))
    (sra : w ≠ h → opcodeOf w = 0x33#7 → funct3Of w = 5#3 → funct7Of w = 0x20#7 → P (.sra (rdOf w) (rs1Of w) (rs2Of w)))
    (or : w ≠ h → opcodeOf w = 0x33#7 → funct3Of w = 6#3 → funct7Of w = 0x00#7 → P (.or (rdOf w) (rs1Of w) (rs2Of w)))
    (and : w ≠ h → opcodeOf w = 0x33#7 → funct3Of w = 7#3 → funct7Of w = 0x00#7 → P (.and (rdOf w) (rs1Of w) (rs2Of w)))
    (illegal : w ≠ h → (∀ r ∈ opcodeTable, w &&& r.mask ≠ r.pattern) → P (.illegal w)) :
    P (decodeWord h w) := by
  rw [no_row_iff] at illegal
  unfold decodeWord decodeBranch decodeLoad decodeStore decodeAluImm decodeAluReg
  refine ite_rec halt fun hn => ?_
  have ne : ∀ {x y : BitVec 7}, opcodeOf w = x → opcodeOf w = y → x ≠ y → False :=
    fun a b c => c (a.symm.trans b)
  refine ite_rec (fun o0 => lui hn o0) fun n0 => ?_
  refine ite_rec (fun o1 => auipc hn o1) fun n1 => ?_
  refine ite_rec (fun o2 => jal hn o2) fun n2 => ?_
  refine ite_rec (fun o3 => (ite_rec (fun a0 => jalr hn o3 a0) fun b0 =>
    illegal hn ⟨fun e => n0 e,
      fun e => n1 e,
      fun e => n2 e,
      fun e => b0 e.1,
      fun e => ne o3 e.2 (by decide),
      fun e => ne o3 e.2 (by decide),
      fun e => ne o3 e.2 (by decide),
      fun e => ne o3 e.2 (by decide),
      fun e => ne o3 e.2 (by decide),
      fun e => ne o3 e.2 (by decide),
      fun e => ne o3 e.2 (by decide),
      fun e => ne o3 e.2 (by decide),
      fun e => ne o3 e.2 (by decide),
      fun e => ne o3 e.2 (by decide),
      fun e => ne o3 e.2 (by decide),
      fun e => ne o3 e.2 (by decide),
      fun e => ne o3 e.2 (by decide),
      fun e => ne o3 e.2 (by decide),
      fun e => ne o3 e.2 (by decide),
      fun e => ne o3 e.2 (by decide),
      fun e => ne o3 e.2 (by decide),
      fun e => ne o3 e.2 (by decide),
      fun e => ne o3 e.2 (by decide),
      fun e => ne o3 e.2 (by decide),
      fun e => ne o3 e.2.2 (by decide),
      fun e => ne o3 e.2.2 (by decide),
      fun e => ne o3 e.2.2 (by decide),
      fun e => ne o3 e.2.2 (by decide),
      fun e => ne o3 e.2.2 (by decide),
      fun e => ne o3 e.2.2 (by decide),
      fun e => ne o3 e.2.2 (by decide),
      fun e => ne o3 e.2.2 (by decide),
      fun e => ne o3 e.2.2 (by decide),
      fun e => ne o3 e.2.2 (by decide),
      fun e => ne o3 e.2.2 (by decide),
      fun e => ne o3 e.2.2 (by decide),
      fun e => ne o3 e.2.2 (by decide)⟩)) fun n3 => ?_
  refine ite_rec (fun o4 => (ite_rec (fun a0 => beq hn o4 a0) fun b0 =>
    (ite_rec (fun a1 => bne hn o4 a1) fun b1 =>
    (ite_rec (fun a2 => blt hn o4 a2) fun b2 =>
    (ite_rec (fun a3 => bge hn o4 a3) fun b3 =>
    (ite_rec (fun a4 => bltu hn o4 a4) fun b4 =>
    (ite_rec (fun a5 => bgeu hn o4 a5) fun b5 =>
    illegal hn ⟨fun e => n0 e,
      fun e => n1 e,
      fun e => n2 e,
      fun e => n3 e.2,
      fun e => b0 e.1,
      fun e => b1 e.1,
      fun e => b2 e.1,
      fun e => b3 e.1,
      fun e => b4 e.1,
      fun e => b5 e.1,
      fun e => ne o4 e.2 (by decide),
      fun e => ne o4 e.2 (by decide),
      fun e => ne o4 e.2 (by decide),
      fun e => ne o4 e.2 (by decide),
      fun e => ne o4 e.2 (by decide),
      fun e => ne o4 e.2 (by decide),
      fun e => ne o4 e.2 (by decide),
      fun e => ne o4 e.2 (by decide),
      fun e => ne o4 e.2 (by decide),
      fun e => ne o4 e.2 (by decide),
      fun e => ne o4 e.2 (by decide),
      fun e => ne o4 e.2 (by decide),
      fun e => ne o4 e.2 (by decide),
      fun e => ne o4 e.2 (by decide),
      fun e => ne o4 e.2.2 (by decide),
      fun e => ne o4 e.2.2 (by decide),
      fun e => ne o4 e.2.2 (by decide),
      fun e => ne o4 e.2.2 (by decide),
      fun e => ne o4 e.2.2 (by decide),
      fun e => ne o4 e.2.2 (by decide),
      fun e => ne o4 e.2.2 (by decide),
      fun e => ne o4 e.2.2 (by decide),
      fun e => ne o4 e.2.2 (by decide),
      fun e => ne o4 e.2.2 (by decide),
      fun e => ne o4 e.2.2 (by decide),
      fun e => ne o4 e.2.2 (by decide),
      fun e => ne o4 e.2.2 (by decide)⟩))))))) fun n4 => ?_
  refine ite_rec (fun o5 => (ite_rec (fun a0 => lb hn o5 a0) fun b0 =>
    (ite_rec (fun a1 => lh hn o5 a1) fun b1 =>
    (ite_rec (fun a2 => lw hn o5 a2) fun b2 =>
    (ite_rec (fun a3 => lbu hn o5 a3) fun b3 =>
    (ite_rec (fun a4 => lhu hn o5 a4) fun b4 =>
    illegal hn ⟨fun e => n0 e,
      fun e => n1 e,
      fun e => n2 e,
      fun e => n3 e.2,
      fun e => n4 e.2,
      fun e => n4 e.2,
      fun e => n4 e.2,
      fun e => n4 e.2,
      fun e => n4 e.2,
      fun e => n4 e.2,
      fun e => b0 e.1,
      fun e => b1 e.1,
      fun e => b2 e.1,
      fun e => b3 e.1,
      fun e => b4 e.1,
      fun e => ne o5 e.2 (by decide),
      fun e => ne o5 e.2 (by decide),
      fun e => ne o5 e.2 (by decide),
      fun e => ne o5 e.2 (by decide),
      fun e => ne o5 e.2 (by decide),
      fun e => ne o5 e.2 (by decide),
      fun e => ne o5 e.2 (by decide),
      fun e => ne o5 e.2 (by decide),
      fun e => ne o5 e.2 (by decide),
      fun e => ne o5 e.2.2 (by decide),
      fun e => ne o5 e.2.2 (by decide),
      fun e => ne o5 e.2.2 (by decide),
      fun e => ne o5 e.2.2 (by decide),
      fun e => ne o5 e.2.2 (by decide),
      fun e => ne o5 e.2.2 (by decide),
      fun e => ne o5 e.2.2 (by decide),
      fun e => ne o5 e.2.2 (by decide),
      fun e => ne o5 e.2.2 (by decide),
      fun e => ne o5 e.2.2 (by decide),
      fun e => ne o5 e.2.2 (by decide),
      fun e => ne o5 e.2.2 (by decide),
      fun e => ne o5 e.2.2 (by decide)⟩)))))) fun n5 => ?_
  refine ite_rec (fun o6 => (ite_rec (fun a0 => sb hn o6 a0) fun b0 =>
    (ite_rec (fun a1 => sh hn o6 a1) fun b1 =>
    (ite_rec (fun a2 => sw hn o6 a2) fun b2 =>
    illegal hn ⟨fun e => n0 e,
      fun e => n1 e,
      fun e => n2 e,
      fun e => n3 e.2,
      fun e => n4 e.2,
      fun e => n4 e.2,
      fun e => n4 e.2,
      fun e => n4 e.2,
      fun e => n4 e.2,
      fun e => n4 e.2,
      fun e => n5 e.2,
      fun e => n5 e.2,
      fun e => n5 e.2,
      fun e => n5 e.2,
      fun e => n5 e.2,
      fun e => b0 e.1,
      fun e => b1 e.1,
      fun e => b2 e.1,
      fun e => ne o6 e.2 (by decide),
      fun e => ne o6 e.2 (by decide),
      fun e => ne o6 e.2 (by decide),
      fun e => ne o6 e.2 (by decide),
      fun e => ne o6 e.2 (by decide),
      fun e => ne o6 e.2 (by decide),
      fun e => ne o6 e.2.2 (by decide),
      fun e => ne o6 e.2.2 (by decide),
      fun e => ne o6 e.2.2 (by decide),
      fun e => ne o6 e.2.2 (by decide),
      fun e => ne o6 e.2.2 (by decide),
      fun e => ne o6 e.2.2 (by decide),
      fun e => ne o6 e.2.2 (by decide),
      fun e => ne o6 e.2.2 (by decide),
      fun e => ne o6 e.2.2 (by decide),
      fun e => ne o6 e.2.2 (by decide),
      fun e => ne o6 e.2.2 (by decide),
      fun e => ne o6 e.2.2 (by decide),
      fun e => ne o6 e.2.2 (by decide)⟩)))) fun n6 => ?_
  refine ite_rec (fun o7 => (ite_rec (fun a0 => addi hn o7 a0) fun b0 =>
    (ite_rec (fun a1 => slti hn o7 a1) fun b1 =>
    (ite_rec (fun a2 => sltiu hn o7 a2) fun b2 =>
    (ite_rec (fun a3 => xori hn o7 a3) fun b3 =>
    (ite_rec (fun a4 => ori hn o7 a4) fun b4 =>
    (ite_rec (fun a5 => andi hn o7 a5) fun b5 =>
    (ite_rec (fun a6 => slli hn o7 a6.1 a6.2) fun b6 =>
    (ite_rec (fun a7 => srli hn o7 a7.1 a7.2) fun b7 =>
    (ite_rec (fun a8 => srai hn o7 a8.1 a8.2) fun b8 =>
    illegal hn ⟨fun e => n0 e,
      fun e => n1 e,
      fun e => n2 e,
      fun e => n3 e.2,
      fun e => n4 e.2,
      fun e => n4 e.2,
      fun e => n4 e.2,
      fun e => n4 e.2,
      fun e => n4 e.2,
      fun e => n4 e.2,
      fun e => n5 e.2,
      fun e => n5 e.2,
      fun e => n5 e.2,
      fun e => n5 e.2,
      fun e => n5 e.2,
      fun e => n6 e.2,
      fun e => n6 e.2,
      fun e => n6 e.2,
      fun e => b0 e.1,
      fun e => b1 e.1,
      fun e => b2 e.1,
      fun e => b3 e.1,
      fun e => b4 e.1,
      fun e => b5 e.1,
      fun e => b6 ⟨e.2.1, e.1⟩,
      fun e => b7 ⟨e.2.1, e.1⟩,
      fun e => b8 ⟨e.2.1, e.1⟩,
      fun e => ne o7 e.2.2 (by decide),
      fun e => ne o7 e.2.2 (by decide),
      fun e => ne o7 e.2.2 (by decide),
      fun e => ne o7 e.2.2 (by decide),
      fun e => ne o7 e.2.2 (by decide),
      fun e => ne o7 e.2.2 (by decide),
      fun e => ne o7 e.2.2 (by decide),
      fun e => ne o7 e.2.2 (by decide),
      fun e => ne o7 e.2.2 (by decide),
      fun e => ne o7 e.2.2 (by decide)⟩)))))))))) fun n7 => ?_
  refine ite_rec (fun o8 => (ite_rec (fun a0 => add hn o8 a0.1 a0.2) fun b0 =>
    (ite_rec (fun a1 => sub hn o8 a1.1 a1.2) fun b1 =>
    (ite_rec (fun a2 => sll hn o8 a2.1 a2.2) fun b2 =>
    (ite_rec (fun a3 => slt hn o8 a3.1 a3.2) fun b3 =>
    (ite_rec (fun a4 => sltu hn o8 a4.1 a4.2) fun b4 =>
    (ite_rec (fun a5 => xor hn o8 a5.1 a5.2) fun b5 =>
    (ite_rec (fun a6 => srl hn o8 a6.1 a6.2) fun b6 =>
    (ite_rec (fun a7 => sra hn o8 a7.1 a7.2) fun b7 =>
    (ite_rec (fun a8 => or hn o8 a8.1 a8.2) fun b8 =>
    (ite_rec (fun a9 => and hn o8 a9.1 a9.2) fun b9 =>
    illegal hn ⟨fun e => n0 e,
      fun e => n1 e,
      fun e => n2 e,
      fun e => n3 e.2,
      fun e => n4 e.2,
      fun e => n4 e.2,
      fun e => n4 e.2,
      fun e => n4 e.2,
      fun e => n4 e.2,
      fun e => n4 e.2,
      fun e => n5 e.2,
      fun e => n5 e.2,
      fun e => n5 e.2,
      fun e => n5 e.2,
      fun e => n5 e.2,
      fun e => n6 e.2,
      fun e => n6 e.2,
      fun e => n6 e.2,
      fun e => n7 e.2,
      fun e => n7 e.2,
      fun e => n7 e.2,
      fun e => n7 e.2,
      fun e => n7 e.2,
      fun e => n7 e.2,
      fun e => n7 e.2.2,
      fun e => n7 e.2.2,
      fun e => n7 e.2.2,
      fun e => b0 ⟨e.2.1, e.1⟩,
      fun e => b1 ⟨e.2.1, e.1⟩,
      fun e => b2 ⟨e.2.1, e.1⟩,
      fun e => b3 ⟨e.2.1, e.1⟩,
      fun e => b4 ⟨e.2.1, e.1⟩,
      fun e => b5 ⟨e.2.1, e.1⟩,
      fun e => b6 ⟨e.2.1, e.1⟩,
      fun e => b7 ⟨e.2.1, e.1⟩,
      fun e => b8 ⟨e.2.1, e.1⟩,
      fun e => b9 ⟨e.2.1, e.1⟩⟩))))))))))) fun n8 => ?_
  exact illegal hn ⟨fun e => n0 e,
      fun e => n1 e,
      fun e => n2 e,
      fun e => n3 e.2,
      fun e => n4 e.2,
      fun e => n4 e.2,
      fun e => n4 e.2,
      fun e => n4 e.2,
      fun e => n4 e.2,
      fun e => n4 e.2,
      fun e => n5 e.2,
      fun e => n5 e.2,
      fun e => n5 e.2,
      fun e => n5 e.2,
      fun e => n5 e.2,
      fun e => n6 e.2,
      fun e => n6 e.2,
      fun e => n6 e.2,
      fun e => n7 e.2,
      fun e => n7 e.2,
      fun e => n7 e.2,
      fun e => n7 e.2,
      fun e => n7 e.2,
      fun e => n7 e.2,
      fun e => n7 e.2.2,
      fun e => n7 e.2.2,
      fun e => n7 e.2.2,
      fun e => n8 e.2.2,
      fun e => n8 e.2.2,
      fun e => n8 e.2.2,
      fun e => n8 e.2.2,
      fun e => n8 e.2.2,
      fun e => n8 e.2.2,
      fun e => n8 e.2.2,
      fun e => n8 e.2.2,
      fun e => n8 e.2.2,
      fun e => n8 e.2.2⟩

end Sys2Proof
end

