-- ==== Sys2Proof/Laws/Memory.lean ====
section
/-! SUPPORT. The laws of the sparse tables, the address sets and the byte memory: read after write,
and that every operation keeps the canonical form. -/

namespace Sys2Proof.Machine

section Table

variable {α : Type} [DecidableEq α] (d : α)

theorem tableWf_cons {k : Nat} {v : α} {rest : List (Nat × α)} :
    tableWf d ((k, v) :: rest) = true ↔
      v ≠ d ∧ (∀ e ∈ rest, k < e.1) ∧ tableWf d rest = true := by
  simp [tableWf, and_assoc]

omit [DecidableEq α] in
theorem tableGet_below {rest : List (Nat × α)} {k : Nat} (h : ∀ e ∈ rest, k < e.1) :
    tableGet d rest k = d := by
  induction rest with
  | nil => rfl
  | cons e rest ih =>
    have hk : k < e.1 := h e (by simp)
    simp [tableGet, Nat.ne_of_lt hk, ih fun x hx => h x (by simp [hx])]

/-- Everything a written table lists was listed before or is the entry written. -/
theorem mem_tablePut {l : List (Nat × α)} {k : Nat} {v : α} {e : Nat × α}
    (h : e ∈ tablePut d l k v) : e ∈ l ∨ e = (k, v) := by
  induction l with
  | nil =>
    simp only [tablePut] at h
    split at h <;> simp_all
  | cons x rest ih =>
    simp only [tablePut] at h
    split at h
    · split at h <;> (simp_all; try tauto)
    · split at h
      · split at h <;> (simp_all; try tauto)
      · rcases List.mem_cons.mp h with h | h
        · simp [h]
        · rcases ih h with h | h <;> simp [h]

/-- A write keeps the canonical form. -/
theorem tableWf_put {l : List (Nat × α)} (k : Nat) (v : α) (h : tableWf d l = true) :
    tableWf d (tablePut d l k v) = true := by
  induction l with
  | nil =>
    simp only [tablePut]
    split <;> simp_all [tableWf]
  | cons x rest ih =>
    obtain ⟨hv, hlt, hwf⟩ := (tableWf_cons d).mp h
    simp only [tablePut]
    split
    · split
      · exact hwf
      · exact (tableWf_cons d).mpr ⟨‹_›, ‹k = x.1› ▸ hlt, hwf⟩
    · split
      · split
        · exact h
        · refine (tableWf_cons d).mpr ⟨‹_›, fun e he => ?_, h⟩
          rcases List.mem_cons.mp he with rfl | he
          · assumption
          · exact Nat.lt_trans ‹_› (hlt e he)
      · refine (tableWf_cons d).mpr ⟨hv, fun e he => ?_, ih hwf⟩
        rcases mem_tablePut d he with he | rfl
        · exact hlt e he
        · show x.1 < k
          omega

/-- Read after write. -/
theorem tableGet_put {l : List (Nat × α)} (k : Nat) (v : α) (j : Nat) (h : tableWf d l = true) :
    tableGet d (tablePut d l k v) j = if j = k then v else tableGet d l j := by
  induction l with
  | nil =>
    simp only [tablePut]
    split <;> simp_all [tableGet]
  | cons x rest ih =>
    obtain ⟨hv, hlt, hwf⟩ := (tableWf_cons d).mp h
    simp only [tablePut]
    split
    · rename_i hk
      subst hk
      by_cases hj : j = x.1
      · subst hj
        split
        · simp_all [tableGet_below d hlt]
        · simp [tableGet]
      · split <;> simp [tableGet, hj]
    · split
      · rename_i hne hlt'
        by_cases hj : j = k
        · subst hj
          have : tableGet d (x :: rest) j = d := tableGet_below d fun e he => by
            rcases List.mem_cons.mp he with rfl | he
            · exact hlt'
            · exact Nat.lt_trans hlt' (hlt e he)
          split
          · simp_all
          · simp [tableGet]
        · split <;> simp [tableGet, hj]
      · rename_i hne hge
        by_cases hj : j = x.1
        · subst hj
          have : x.1 ≠ k := fun h => hne h.symm
          simp [tableGet, this]
        · simp [tableGet, hj, ih hwf]

end Table

theorem setWf_cons {n : Nat} {rest : List Nat} :
    setWf (n :: rest) = true ↔ (∀ m ∈ rest, n < m) ∧ setWf rest = true := by
  simp [setWf]

theorem mem_setInsert {n m : Nat} {l : List Nat} : m ∈ setInsert n l ↔ m = n ∨ m ∈ l := by
  induction l with
  | nil => simp [setInsert]
  | cons x rest ih =>
    simp only [setInsert]
    split
    · simp_all
    · split
      · simp
      · simp only [List.mem_cons, ih]
        tauto

theorem setWf_insert {n : Nat} {l : List Nat} (h : setWf l = true) : setWf (setInsert n l) = true := by
  induction l with
  | nil => rfl
  | cons x rest ih =>
    obtain ⟨hlt, hwf⟩ := setWf_cons.mp h
    simp only [setInsert]
    split
    · exact h
    · split
      · refine setWf_cons.mpr ⟨fun m hm => ?_, h⟩
        rcases List.mem_cons.mp hm with rfl | hm
        · assumption
        · exact Nat.lt_trans ‹_› (hlt m hm)
      · refine setWf_cons.mpr ⟨fun m hm => ?_, ih hwf⟩
        rcases mem_setInsert.mp hm with rfl | hm
        · omega
        · exact hlt m hm

theorem mem_foldl_setInsert {m : Nat} (as l : List Nat) :
    m ∈ as.foldl (fun d a => setInsert a d) l ↔ m ∈ as ∨ m ∈ l := by
  induction as generalizing l with
  | nil => simp
  | cons a as ih => simp [ih, mem_setInsert]; tauto

theorem setWf_foldl_setInsert (as l : List Nat) (h : setWf l = true) :
    setWf (as.foldl (fun d a => setInsert a d) l) = true := by
  induction as generalizing l with
  | nil => exact h
  | cons a as ih => exact ih _ (setWf_insert h)

/-! ## Bytes -/

theorem memByte_putByte {m : List Host.Cell} (h : Memory.wf m = true) (a x : Nat) (v : Byte) :
    memByte (memPutByte m a v) x = if x = a then v else memByte m x :=
  tableGet_put _ a v x h

/-- Every memory operation keeps the canonical form: one byte. -/
theorem memory_wf_putByte {m : List Host.Cell} (h : Memory.wf m = true) (a : Nat) (v : Byte) :
    Memory.wf (memPutByte m a v) = true :=
  tableWf_put _ a v h

/-- Every memory operation keeps the canonical form: a list of bytes. -/
theorem memory_wf_putBytes {m : List Host.Cell} (h : Memory.wf m = true) (a : Nat)
    (bs : List Byte) : Memory.wf (memPutBytes m a bs) = true := by
  induction bs generalizing m a with
  | nil => exact h
  | cons b bs ih => exact ih (memory_wf_putByte h a b) (a + 1)

/-- Reading a byte after writing a list of bytes. -/
theorem memByte_putBytes {m : List Host.Cell} (h : Memory.wf m = true) (a x : Nat)
    (bs : List Byte) :
    memByte (memPutBytes m a bs) x =
      if a ≤ x ∧ x < a + bs.length then bs.getD (x - a) 0#8 else memByte m x := by
  induction bs generalizing m a with
  | nil => simp [memPutBytes]
  | cons b bs ih =>
    simp only [memPutBytes, ih (memory_wf_putByte h a b) (a + 1), memByte_putByte h,
      List.length_cons]
    by_cases hx : x = a
    · subst hx
      simp
    · by_cases hr : a + 1 ≤ x ∧ x < a + 1 + bs.length
      · obtain ⟨k, rfl⟩ : ∃ k, x = a + 1 + k := ⟨x - (a + 1), by omega⟩
        have h1 : a + 1 + k - (a + 1) = k := by omega
        have h2 : a + 1 + k - a = k + 1 := by omega
        rw [if_pos hr, if_pos (by omega), h1, h2]
        rfl
      · rw [if_neg hr, if_neg hx, if_neg (by omega)]

/-- What a written memory lists was listed or lies in the bytes written. -/
theorem mem_putBytes {m : List Host.Cell} {a : Nat} {bs : List Byte} {c : Host.Cell}
    (h : c ∈ memPutBytes m a bs) : c ∈ m ∨ (a ≤ c.1 ∧ c.1 < a + bs.length) := by
  induction bs generalizing m a with
  | nil => exact .inl h
  | cons b bs ih =>
    rcases ih h with h | h
    · rcases mem_tablePut _ h with h | rfl
      · exact .inl h
      · exact .inr (by simp)
    · exact .inr (by simp only [List.length_cons]; omega)

theorem storeBytes_length (v : Word) (n : Width) : (storeBytes v n).length = n.bytes := by
  cases n <;> rfl

/-- The k-th byte a store of a width puts (R61). -/
theorem storeBytes_getD (v : Word) (n : Width) (k : Nat) (h : k < n.bytes) :
    (storeBytes v n).getD k 0#8 = v.extractLsb' (8 * k) 8 := by
  cases n <;> simp only [Width.bytes] at h <;> interval_cases k <;> rfl

/-- A read answers the bytes or the fault, and nothing else (R60). -/
theorem memRead_cases (c : Nat) (m : List Host.Cell) (addr : Word) (n : Width) :
    (addr.toNat + n.bytes ≤ c ∧ memRead c m addr n = .ok (memValue m addr.toNat n)) ∨
      (c < addr.toNat + n.bytes ∧ memRead c m addr n = .error (.outOfBounds addr)) := by
  unfold memRead inBounds
  by_cases h : addr.toNat + n.bytes ≤ c
  · exact .inl ⟨h, by simp [h]⟩
  · exact .inr ⟨by omega, by simp [h]⟩

/-- A write answers the written memory or the fault, and nothing else (R61). -/
theorem memWrite_cases (c : Nat) (m : List Host.Cell) (addr : Word) (n : Width) (v : Word) :
    (addr.toNat + n.bytes ≤ c ∧
        memWrite c m addr n v = .ok (memPutBytes m addr.toNat (storeBytes v n))) ∨
      (c < addr.toNat + n.bytes ∧ memWrite c m addr n v = .error (.outOfBounds addr)) := by
  unfold memWrite inBounds
  by_cases h : addr.toNat + n.bytes ≤ c
  · exact .inl ⟨h, by simp [h]⟩
  · exact .inr ⟨by omega, by simp [h]⟩

/-- Every memory operation keeps the canonical form: a store. -/
theorem memory_wf_write {c : Nat} {m m' : List Host.Cell} {addr : Word} {n : Width} {v : Word}
    (h : Memory.wf m = true) (hw : memWrite c m addr n v = .ok m') : Memory.wf m' = true := by
  rcases memWrite_cases c m addr n v with ⟨_, e⟩ | ⟨_, e⟩
  · rw [e] at hw
    cases hw
    exact memory_wf_putBytes h _ _
  · rw [e] at hw
    cases hw

theorem mem_accessAddrs {addr : Word} {n : Width} {x : Nat} :
    x ∈ accessAddrs addr n ↔ addr.toNat ≤ x ∧ x < addr.toNat + n.bytes := by
  cases n <;> simp [accessAddrs, Width.bytes] <;> omega

end Sys2Proof.Machine
end

