-- ==== Sys2Proof/Laws/State.lean ====
section
/-! SUPPORT. What each operation on the state leaves alone, field by field, for the simplifier. -/

namespace Sys2Proof.Machine

variable (s : State)

section writeReg
variable (r : RegIdx) (v : Word)
@[simp] theorem writeReg_cfg : (s.writeReg r v).cfg = s.cfg := by unfold State.writeReg; split <;> rfl
@[simp] theorem writeReg_pc : (s.writeReg r v).pc = s.pc := by unfold State.writeReg; split <;> rfl
@[simp] theorem writeReg_pipe : (s.writeReg r v).pipe = s.pipe := by unfold State.writeReg; split <;> rfl
@[simp] theorem writeReg_clock : (s.writeReg r v).clock = s.clock := by unfold State.writeReg; split <;> rfl
@[simp] theorem writeReg_fw : (s.writeReg r v).fw = s.fw := by unfold State.writeReg; split <;> rfl
@[simp] theorem writeReg_pred : (s.writeReg r v).pred = s.pred := by unfold State.writeReg; split <;> rfl
@[simp] theorem writeReg_ctl : (s.writeReg r v).ctl = s.ctl := by unfold State.writeReg; split <;> rfl
@[simp] theorem writeReg_run : (s.writeReg r v).run = s.run := by unfold State.writeReg; split <;> rfl
@[simp] theorem writeReg_win : (s.writeReg r v).win = s.win := by unfold State.writeReg; split <;> rfl
@[simp] theorem writeReg_mem : (s.writeReg r v).mem = s.mem := by unfold State.writeReg; split <;> rfl
@[simp] theorem writeReg_logicalSize : (s.writeReg r v).logicalSize = s.logicalSize := by unfold State.writeReg; split <;> rfl
@[simp] theorem writeReg_stats : (s.writeReg r v).stats = s.stats := by unfold State.writeReg; split <;> rfl
@[simp] theorem writeReg_wires : (s.writeReg r v).wires = s.wires := by unfold State.writeReg; split <;> rfl
end writeReg

section inPhase
variable (p : Phase)
@[simp] theorem inPhase_cfg : (s.inPhase p).cfg = s.cfg := rfl
@[simp] theorem inPhase_regs : (s.inPhase p).regs = s.regs := rfl
@[simp] theorem inPhase_pc : (s.inPhase p).pc = s.pc := rfl
@[simp] theorem inPhase_pipe : (s.inPhase p).pipe = s.pipe := rfl
@[simp] theorem inPhase_clock : (s.inPhase p).clock = s.clock := rfl
@[simp] theorem inPhase_fw : (s.inPhase p).fw = s.fw := rfl
@[simp] theorem inPhase_pred : (s.inPhase p).pred = s.pred := rfl
@[simp] theorem inPhase_ctl : (s.inPhase p).ctl = s.ctl := rfl
@[simp] theorem inPhase_run : (s.inPhase p).run = s.run := rfl
@[simp] theorem inPhase_win : (s.inPhase p).win = s.win := rfl
@[simp] theorem inPhase_mem : (s.inPhase p).mem = s.mem := rfl
@[simp] theorem inPhase_logicalSize : (s.inPhase p).logicalSize = s.logicalSize := rfl
@[simp] theorem inPhase_stats : (s.inPhase p).stats = s.stats := rfl
end inPhase

section raiseInEx
variable (f : Fault)
@[simp] theorem raiseInEx_cfg : (raiseInEx f s).cfg = s.cfg := rfl
@[simp] theorem raiseInEx_regs : (raiseInEx f s).regs = s.regs := rfl
@[simp] theorem raiseInEx_pc : (raiseInEx f s).pc = s.pc := rfl
@[simp] theorem raiseInEx_clock : (raiseInEx f s).clock = s.clock := rfl
@[simp] theorem raiseInEx_fw : (raiseInEx f s).fw = s.fw := rfl
@[simp] theorem raiseInEx_pred : (raiseInEx f s).pred = s.pred := rfl
@[simp] theorem raiseInEx_ctl : (raiseInEx f s).ctl = s.ctl := rfl
@[simp] theorem raiseInEx_run : (raiseInEx f s).run = s.run := rfl
@[simp] theorem raiseInEx_win : (raiseInEx f s).win = s.win := rfl
@[simp] theorem raiseInEx_mem : (raiseInEx f s).mem = s.mem := rfl
@[simp] theorem raiseInEx_logicalSize : (raiseInEx f s).logicalSize = s.logicalSize := rfl
@[simp] theorem raiseInEx_stats : (raiseInEx f s).stats = s.stats := rfl
end raiseInEx

section endRun
variable (f : Fault)
@[simp] theorem endRun_cfg : (endRun f s).cfg = s.cfg := rfl
@[simp] theorem endRun_regs : (endRun f s).regs = s.regs := rfl
@[simp] theorem endRun_pc : (endRun f s).pc = s.pc := rfl
@[simp] theorem endRun_pipe : (endRun f s).pipe = s.pipe := rfl
@[simp] theorem endRun_clock : (endRun f s).clock = s.clock := rfl
@[simp] theorem endRun_fw : (endRun f s).fw = s.fw := rfl
@[simp] theorem endRun_pred : (endRun f s).pred = s.pred := rfl
@[simp] theorem endRun_ctl : (endRun f s).ctl = s.ctl := rfl
@[simp] theorem endRun_win : (endRun f s).win = s.win := rfl
@[simp] theorem endRun_mem : (endRun f s).mem = s.mem := rfl
@[simp] theorem endRun_logicalSize : (endRun f s).logicalSize = s.logicalSize := rfl
@[simp] theorem endRun_stats : (endRun f s).stats = s.stats := rfl
@[simp] theorem endRun_wires : (endRun f s).wires = s.wires := rfl
end endRun

section retireHalt
variable (f : Option Fault)
@[simp] theorem retireHalt_cfg : (retireHalt f s).cfg = s.cfg := rfl
@[simp] theorem retireHalt_regs : (retireHalt f s).regs = s.regs := rfl
@[simp] theorem retireHalt_pc : (retireHalt f s).pc = s.pc := rfl
@[simp] theorem retireHalt_pipe : (retireHalt f s).pipe = s.pipe := rfl
@[simp] theorem retireHalt_clock : (retireHalt f s).clock = s.clock := rfl
@[simp] theorem retireHalt_fw : (retireHalt f s).fw = s.fw := rfl
@[simp] theorem retireHalt_pred : (retireHalt f s).pred = s.pred := rfl
@[simp] theorem retireHalt_ctl : (retireHalt f s).ctl = s.ctl := rfl
@[simp] theorem retireHalt_win : (retireHalt f s).win = s.win := rfl
@[simp] theorem retireHalt_mem : (retireHalt f s).mem = s.mem := rfl
@[simp] theorem retireHalt_logicalSize : (retireHalt f s).logicalSize = s.logicalSize := rfl
@[simp] theorem retireHalt_stats : (retireHalt f s).stats = s.stats := rfl
@[simp] theorem retireHalt_wires : (retireHalt f s).wires = s.wires := rfl
end retireHalt

section forwardStep
@[simp] theorem forwardStep_cfg : (forwardStep s).cfg = s.cfg := by unfold forwardStep; split <;> rfl
@[simp] theorem forwardStep_regs : (forwardStep s).regs = s.regs := by unfold forwardStep; split <;> rfl
@[simp] theorem forwardStep_pc : (forwardStep s).pc = s.pc := by unfold forwardStep; split <;> rfl
@[simp] theorem forwardStep_pipe : (forwardStep s).pipe = s.pipe := by unfold forwardStep; split <;> rfl
@[simp] theorem forwardStep_clock : (forwardStep s).clock = s.clock := by unfold forwardStep; split <;> rfl
@[simp] theorem forwardStep_pred : (forwardStep s).pred = s.pred := by unfold forwardStep; split <;> rfl
@[simp] theorem forwardStep_ctl : (forwardStep s).ctl = s.ctl := by unfold forwardStep; split <;> rfl
@[simp] theorem forwardStep_run : (forwardStep s).run = s.run := by unfold forwardStep; split <;> rfl
@[simp] theorem forwardStep_win : (forwardStep s).win = s.win := by unfold forwardStep; split <;> rfl
@[simp] theorem forwardStep_mem : (forwardStep s).mem = s.mem := by unfold forwardStep; split <;> rfl
@[simp] theorem forwardStep_logicalSize : (forwardStep s).logicalSize = s.logicalSize := by unfold forwardStep; split <;> rfl
@[simp] theorem forwardStep_stats : (forwardStep s).stats = s.stats := by unfold forwardStep; split <;> rfl
@[simp] theorem forwardStep_wires : (forwardStep s).wires = s.wires := by unfold forwardStep; split <;> rfl
end forwardStep

section idDecode
variable (i : Instr)
@[simp] theorem idDecode_cfg : (idDecode i s).cfg = s.cfg := rfl
@[simp] theorem idDecode_regs : (idDecode i s).regs = s.regs := rfl
@[simp] theorem idDecode_pc : (idDecode i s).pc = s.pc := rfl
@[simp] theorem idDecode_clock : (idDecode i s).clock = s.clock := rfl
@[simp] theorem idDecode_fw : (idDecode i s).fw = s.fw := rfl
@[simp] theorem idDecode_pred : (idDecode i s).pred = s.pred := rfl
@[simp] theorem idDecode_ctl : (idDecode i s).ctl = s.ctl := rfl
@[simp] theorem idDecode_run : (idDecode i s).run = s.run := rfl
@[simp] theorem idDecode_win : (idDecode i s).win = s.win := rfl
@[simp] theorem idDecode_mem : (idDecode i s).mem = s.mem := rfl
@[simp] theorem idDecode_logicalSize : (idDecode i s).logicalSize = s.logicalSize := rfl
@[simp] theorem idDecode_stats : (idDecode i s).stats = s.stats := rfl
@[simp] theorem idDecode_wires : (idDecode i s).wires = s.wires := rfl
end idDecode

section assertJump
variable (t : Word)
@[simp] theorem assertJump_cfg : (assertJump t s).cfg = s.cfg := rfl
@[simp] theorem assertJump_regs : (assertJump t s).regs = s.regs := rfl
@[simp] theorem assertJump_pc : (assertJump t s).pc = s.pc := rfl
@[simp] theorem assertJump_pipe : (assertJump t s).pipe = s.pipe := rfl
@[simp] theorem assertJump_clock : (assertJump t s).clock = s.clock := rfl
@[simp] theorem assertJump_fw : (assertJump t s).fw = s.fw := rfl
@[simp] theorem assertJump_pred : (assertJump t s).pred = s.pred := rfl
@[simp] theorem assertJump_ctl : (assertJump t s).ctl = s.ctl := rfl
@[simp] theorem assertJump_run : (assertJump t s).run = s.run := rfl
@[simp] theorem assertJump_win : (assertJump t s).win = s.win := rfl
@[simp] theorem assertJump_mem : (assertJump t s).mem = s.mem := rfl
@[simp] theorem assertJump_logicalSize : (assertJump t s).logicalSize = s.logicalSize := rfl
@[simp] theorem assertJump_stats : (assertJump t s).stats = s.stats := rfl
end assertJump

section assertBranch
variable (t : Word)
@[simp] theorem assertBranch_cfg : (assertBranch t s).cfg = s.cfg := by unfold assertBranch; split <;> rfl
@[simp] theorem assertBranch_regs : (assertBranch t s).regs = s.regs := by unfold assertBranch; split <;> rfl
@[simp] theorem assertBranch_pc : (assertBranch t s).pc = s.pc := by unfold assertBranch; split <;> rfl
@[simp] theorem assertBranch_pipe : (assertBranch t s).pipe = s.pipe := by unfold assertBranch; split <;> rfl
@[simp] theorem assertBranch_clock : (assertBranch t s).clock = s.clock := by unfold assertBranch; split <;> rfl
@[simp] theorem assertBranch_fw : (assertBranch t s).fw = s.fw := by unfold assertBranch; split <;> rfl
@[simp] theorem assertBranch_pred : (assertBranch t s).pred = s.pred := by unfold assertBranch; split <;> rfl
@[simp] theorem assertBranch_ctl : (assertBranch t s).ctl = s.ctl := by unfold assertBranch; split <;> rfl
@[simp] theorem assertBranch_run : (assertBranch t s).run = s.run := by unfold assertBranch; split <;> rfl
@[simp] theorem assertBranch_win : (assertBranch t s).win = s.win := by unfold assertBranch; split <;> rfl
@[simp] theorem assertBranch_mem : (assertBranch t s).mem = s.mem := by unfold assertBranch; split <;> rfl
@[simp] theorem assertBranch_logicalSize : (assertBranch t s).logicalSize = s.logicalSize := by unfold assertBranch; split <;> rfl
@[simp] theorem assertBranch_stats : (assertBranch t s).stats = s.stats := by unfold assertBranch; split <;> rfl
end assertBranch

section idJal
variable (i : Instr) (imm : Word)
@[simp] theorem idJal_cfg : (idJal i imm s).cfg = s.cfg := rfl
@[simp] theorem idJal_regs : (idJal i imm s).regs = s.regs := rfl
@[simp] theorem idJal_pc : (idJal i imm s).pc = s.pc := rfl
@[simp] theorem idJal_clock : (idJal i imm s).clock = s.clock := rfl
@[simp] theorem idJal_fw : (idJal i imm s).fw = s.fw := rfl
@[simp] theorem idJal_pred : (idJal i imm s).pred = s.pred := rfl
@[simp] theorem idJal_ctl : (idJal i imm s).ctl = s.ctl := rfl
@[simp] theorem idJal_run : (idJal i imm s).run = s.run := rfl
@[simp] theorem idJal_win : (idJal i imm s).win = s.win := rfl
@[simp] theorem idJal_mem : (idJal i imm s).mem = s.mem := rfl
@[simp] theorem idJal_logicalSize : (idJal i imm s).logicalSize = s.logicalSize := rfl
@[simp] theorem idJal_stats : (idJal i imm s).stats = s.stats := rfl
end idJal

section idJalr
variable (i : Instr) (rs1 : RegIdx) (imm : Word)
@[simp] theorem idJalr_cfg : (idJalr i rs1 imm s).cfg = s.cfg := rfl
@[simp] theorem idJalr_regs : (idJalr i rs1 imm s).regs = s.regs := rfl
@[simp] theorem idJalr_pc : (idJalr i rs1 imm s).pc = s.pc := rfl
@[simp] theorem idJalr_clock : (idJalr i rs1 imm s).clock = s.clock := rfl
@[simp] theorem idJalr_fw : (idJalr i rs1 imm s).fw = s.fw := rfl
@[simp] theorem idJalr_pred : (idJalr i rs1 imm s).pred = s.pred := rfl
@[simp] theorem idJalr_ctl : (idJalr i rs1 imm s).ctl = s.ctl := rfl
@[simp] theorem idJalr_run : (idJalr i rs1 imm s).run = s.run := rfl
@[simp] theorem idJalr_win : (idJalr i rs1 imm s).win = s.win := rfl
@[simp] theorem idJalr_mem : (idJalr i rs1 imm s).mem = s.mem := rfl
@[simp] theorem idJalr_logicalSize : (idJalr i rs1 imm s).logicalSize = s.logicalSize := rfl
@[simp] theorem idJalr_stats : (idJalr i rs1 imm s).stats = s.stats := rfl
end idJalr

section idBranch
variable (i : Instr) (imm : Word)
@[simp] theorem idBranch_cfg : (idBranch i imm s).cfg = s.cfg := by simp [idBranch]
@[simp] theorem idBranch_regs : (idBranch i imm s).regs = s.regs := by simp [idBranch]
@[simp] theorem idBranch_pc : (idBranch i imm s).pc = s.pc := by simp [idBranch]
@[simp] theorem idBranch_clock : (idBranch i imm s).clock = s.clock := by simp [idBranch]
@[simp] theorem idBranch_fw : (idBranch i imm s).fw = s.fw := by simp [idBranch]
@[simp] theorem idBranch_pred : (idBranch i imm s).pred = s.pred := by simp [idBranch]
@[simp] theorem idBranch_ctl : (idBranch i imm s).ctl = s.ctl := by simp [idBranch]
@[simp] theorem idBranch_run : (idBranch i imm s).run = s.run := by simp [idBranch]
@[simp] theorem idBranch_win : (idBranch i imm s).win = s.win := by simp [idBranch]
@[simp] theorem idBranch_mem : (idBranch i imm s).mem = s.mem := by simp [idBranch]
@[simp] theorem idBranch_logicalSize : (idBranch i imm s).logicalSize = s.logicalSize := by simp [idBranch]
@[simp] theorem idBranch_stats : (idBranch i imm s).stats = s.stats := by simp [idBranch]
end idBranch

section exPass
variable (out : Word)
@[simp] theorem exPass_cfg : (exPass out s).cfg = s.cfg := rfl
@[simp] theorem exPass_regs : (exPass out s).regs = s.regs := rfl
@[simp] theorem exPass_pc : (exPass out s).pc = s.pc := rfl
@[simp] theorem exPass_clock : (exPass out s).clock = s.clock := rfl
@[simp] theorem exPass_fw : (exPass out s).fw = s.fw := rfl
@[simp] theorem exPass_pred : (exPass out s).pred = s.pred := rfl
@[simp] theorem exPass_ctl : (exPass out s).ctl = s.ctl := rfl
@[simp] theorem exPass_run : (exPass out s).run = s.run := rfl
@[simp] theorem exPass_win : (exPass out s).win = s.win := rfl
@[simp] theorem exPass_mem : (exPass out s).mem = s.mem := rfl
@[simp] theorem exPass_logicalSize : (exPass out s).logicalSize = s.logicalSize := rfl
@[simp] theorem exPass_stats : (exPass out s).stats = s.stats := rfl
@[simp] theorem exPass_wires : (exPass out s).wires = s.wires := rfl
end exPass

section exResult
variable (rd : RegIdx) (out : Word)
@[simp] theorem exResult_cfg : (exResult rd out s).cfg = s.cfg := rfl
@[simp] theorem exResult_regs : (exResult rd out s).regs = s.regs := rfl
@[simp] theorem exResult_pc : (exResult rd out s).pc = s.pc := rfl
@[simp] theorem exResult_clock : (exResult rd out s).clock = s.clock := rfl
@[simp] theorem exResult_pred : (exResult rd out s).pred = s.pred := rfl
@[simp] theorem exResult_ctl : (exResult rd out s).ctl = s.ctl := rfl
@[simp] theorem exResult_run : (exResult rd out s).run = s.run := rfl
@[simp] theorem exResult_win : (exResult rd out s).win = s.win := rfl
@[simp] theorem exResult_mem : (exResult rd out s).mem = s.mem := rfl
@[simp] theorem exResult_logicalSize : (exResult rd out s).logicalSize = s.logicalSize := rfl
@[simp] theorem exResult_stats : (exResult rd out s).stats = s.stats := rfl
@[simp] theorem exResult_wires : (exResult rd out s).wires = s.wires := rfl
end exResult

section exAddress
variable (imm : Word)
@[simp] theorem exAddress_cfg : (exAddress imm s).cfg = s.cfg := rfl
@[simp] theorem exAddress_regs : (exAddress imm s).regs = s.regs := rfl
@[simp] theorem exAddress_pc : (exAddress imm s).pc = s.pc := rfl
@[simp] theorem exAddress_clock : (exAddress imm s).clock = s.clock := rfl
@[simp] theorem exAddress_fw : (exAddress imm s).fw = s.fw := rfl
@[simp] theorem exAddress_pred : (exAddress imm s).pred = s.pred := rfl
@[simp] theorem exAddress_ctl : (exAddress imm s).ctl = s.ctl := rfl
@[simp] theorem exAddress_run : (exAddress imm s).run = s.run := rfl
@[simp] theorem exAddress_win : (exAddress imm s).win = s.win := rfl
@[simp] theorem exAddress_mem : (exAddress imm s).mem = s.mem := rfl
@[simp] theorem exAddress_logicalSize : (exAddress imm s).logicalSize = s.logicalSize := rfl
@[simp] theorem exAddress_stats : (exAddress imm s).stats = s.stats := rfl
end exAddress

section exBranch
variable (imm : Word) (b : Bool)
@[simp] theorem exBranch_cfg : (exBranch imm b s).cfg = s.cfg := by unfold exBranch; split <;> rfl
@[simp] theorem exBranch_regs : (exBranch imm b s).regs = s.regs := by unfold exBranch; split <;> rfl
@[simp] theorem exBranch_pc : (exBranch imm b s).pc = s.pc := by unfold exBranch; split <;> rfl
@[simp] theorem exBranch_clock : (exBranch imm b s).clock = s.clock := by unfold exBranch; split <;> rfl
@[simp] theorem exBranch_fw : (exBranch imm b s).fw = s.fw := by unfold exBranch; split <;> rfl
@[simp] theorem exBranch_pred : (exBranch imm b s).pred = s.pred := by unfold exBranch; split <;> rfl
@[simp] theorem exBranch_ctl : (exBranch imm b s).ctl = s.ctl := by unfold exBranch; split <;> rfl
@[simp] theorem exBranch_run : (exBranch imm b s).run = s.run := by unfold exBranch; split <;> rfl
@[simp] theorem exBranch_win : (exBranch imm b s).win = s.win := by unfold exBranch; split <;> rfl
@[simp] theorem exBranch_mem : (exBranch imm b s).mem = s.mem := by unfold exBranch; split <;> rfl
@[simp] theorem exBranch_logicalSize : (exBranch imm b s).logicalSize = s.logicalSize := by unfold exBranch; split <;> rfl
@[simp] theorem exBranch_stats : (exBranch imm b s).stats = s.stats := by unfold exBranch; split <;> rfl
end exBranch

section exHalt
@[simp] theorem exHalt_cfg : (exHalt s).cfg = s.cfg := rfl
@[simp] theorem exHalt_regs : (exHalt s).regs = s.regs := rfl
@[simp] theorem exHalt_pc : (exHalt s).pc = s.pc := rfl
@[simp] theorem exHalt_clock : (exHalt s).clock = s.clock := rfl
@[simp] theorem exHalt_fw : (exHalt s).fw = s.fw := rfl
@[simp] theorem exHalt_pred : (exHalt s).pred = s.pred := rfl
@[simp] theorem exHalt_ctl : (exHalt s).ctl = s.ctl := rfl
@[simp] theorem exHalt_run : (exHalt s).run = s.run := rfl
@[simp] theorem exHalt_win : (exHalt s).win = s.win := rfl
@[simp] theorem exHalt_mem : (exHalt s).mem = s.mem := rfl
@[simp] theorem exHalt_logicalSize : (exHalt s).logicalSize = s.logicalSize := rfl
@[simp] theorem exHalt_stats : (exHalt s).stats = s.stats := rfl
end exHalt

section memPass
@[simp] theorem memPass_cfg : (memPass s).cfg = s.cfg := rfl
@[simp] theorem memPass_regs : (memPass s).regs = s.regs := rfl
@[simp] theorem memPass_pc : (memPass s).pc = s.pc := rfl
@[simp] theorem memPass_clock : (memPass s).clock = s.clock := rfl
@[simp] theorem memPass_fw : (memPass s).fw = s.fw := rfl
@[simp] theorem memPass_pred : (memPass s).pred = s.pred := rfl
@[simp] theorem memPass_ctl : (memPass s).ctl = s.ctl := rfl
@[simp] theorem memPass_run : (memPass s).run = s.run := rfl
@[simp] theorem memPass_win : (memPass s).win = s.win := rfl
@[simp] theorem memPass_mem : (memPass s).mem = s.mem := rfl
@[simp] theorem memPass_logicalSize : (memPass s).logicalSize = s.logicalSize := rfl
@[simp] theorem memPass_stats : (memPass s).stats = s.stats := rfl
@[simp] theorem memPass_wires : (memPass s).wires = s.wires := rfl
end memPass

section memLoad
variable (rd : RegIdx) (n : Width) (x : Bool)
@[simp] theorem memLoad_cfg : (memLoad rd n x s).cfg = s.cfg := by unfold memLoad; split <;> rfl
@[simp] theorem memLoad_regs : (memLoad rd n x s).regs = s.regs := by unfold memLoad; split <;> rfl
@[simp] theorem memLoad_pc : (memLoad rd n x s).pc = s.pc := by unfold memLoad; split <;> rfl
@[simp] theorem memLoad_clock : (memLoad rd n x s).clock = s.clock := by unfold memLoad; split <;> rfl
@[simp] theorem memLoad_pred : (memLoad rd n x s).pred = s.pred := by unfold memLoad; split <;> rfl
@[simp] theorem memLoad_ctl : (memLoad rd n x s).ctl = s.ctl := by unfold memLoad; split <;> rfl
@[simp] theorem memLoad_run : (memLoad rd n x s).run = s.run := by unfold memLoad; split <;> rfl
@[simp] theorem memLoad_win : (memLoad rd n x s).win = s.win := by unfold memLoad; split <;> rfl
@[simp] theorem memLoad_mem : (memLoad rd n x s).mem = s.mem := by unfold memLoad; split <;> rfl
@[simp] theorem memLoad_logicalSize : (memLoad rd n x s).logicalSize = s.logicalSize := by unfold memLoad; split <;> rfl
@[simp] theorem memLoad_stats : (memLoad rd n x s).stats = s.stats := by unfold memLoad; split <;> rfl
end memLoad

section memStore
variable (n : Width)
@[simp] theorem memStore_cfg : (memStore n s).cfg = s.cfg := by unfold memStore; split <;> rfl
@[simp] theorem memStore_regs : (memStore n s).regs = s.regs := by unfold memStore; split <;> rfl
@[simp] theorem memStore_pc : (memStore n s).pc = s.pc := by unfold memStore; split <;> rfl
@[simp] theorem memStore_clock : (memStore n s).clock = s.clock := by unfold memStore; split <;> rfl
@[simp] theorem memStore_fw : (memStore n s).fw = s.fw := by unfold memStore; split <;> rfl
@[simp] theorem memStore_pred : (memStore n s).pred = s.pred := by unfold memStore; split <;> rfl
@[simp] theorem memStore_ctl : (memStore n s).ctl = s.ctl := by unfold memStore; split <;> rfl
@[simp] theorem memStore_run : (memStore n s).run = s.run := by unfold memStore; split <;> rfl
@[simp] theorem memStore_win : (memStore n s).win = s.win := by unfold memStore; split <;> rfl
@[simp] theorem memStore_logicalSize : (memStore n s).logicalSize = s.logicalSize := by unfold memStore; split <;> rfl
@[simp] theorem memStore_stats : (memStore n s).stats = s.stats := by unfold memStore; split <;> rfl
end memStore

section wbWrite
variable (rd : RegIdx)
@[simp] theorem wbWrite_cfg : (wbWrite rd s).cfg = s.cfg := by simp [wbWrite]
@[simp] theorem wbWrite_pc : (wbWrite rd s).pc = s.pc := by simp [wbWrite]
@[simp] theorem wbWrite_pipe : (wbWrite rd s).pipe = s.pipe := by simp [wbWrite]
@[simp] theorem wbWrite_clock : (wbWrite rd s).clock = s.clock := by simp [wbWrite]
@[simp] theorem wbWrite_fw : (wbWrite rd s).fw = s.fw := by simp [wbWrite]
@[simp] theorem wbWrite_pred : (wbWrite rd s).pred = s.pred := by simp [wbWrite]
@[simp] theorem wbWrite_ctl : (wbWrite rd s).ctl = s.ctl := by simp [wbWrite]
@[simp] theorem wbWrite_run : (wbWrite rd s).run = s.run := by simp [wbWrite]
@[simp] theorem wbWrite_win : (wbWrite rd s).win = s.win := by simp [wbWrite]
@[simp] theorem wbWrite_mem : (wbWrite rd s).mem = s.mem := by simp [wbWrite]
@[simp] theorem wbWrite_logicalSize : (wbWrite rd s).logicalSize = s.logicalSize := by simp [wbWrite]
@[simp] theorem wbWrite_stats : (wbWrite rd s).stats = s.stats := by simp [wbWrite]
@[simp] theorem wbWrite_wires : (wbWrite rd s).wires = s.wires := by simp [wbWrite]
end wbWrite

section wbHalt
@[simp] theorem wbHalt_cfg : (wbHalt s).cfg = s.cfg := rfl
@[simp] theorem wbHalt_regs : (wbHalt s).regs = s.regs := rfl
@[simp] theorem wbHalt_pc : (wbHalt s).pc = s.pc := rfl
@[simp] theorem wbHalt_pipe : (wbHalt s).pipe = s.pipe := rfl
@[simp] theorem wbHalt_clock : (wbHalt s).clock = s.clock := rfl
@[simp] theorem wbHalt_fw : (wbHalt s).fw = s.fw := rfl
@[simp] theorem wbHalt_pred : (wbHalt s).pred = s.pred := rfl
@[simp] theorem wbHalt_ctl : (wbHalt s).ctl = s.ctl := rfl
@[simp] theorem wbHalt_run : (wbHalt s).run = s.run := rfl
@[simp] theorem wbHalt_win : (wbHalt s).win = s.win := rfl
@[simp] theorem wbHalt_mem : (wbHalt s).mem = s.mem := rfl
@[simp] theorem wbHalt_logicalSize : (wbHalt s).logicalSize = s.logicalSize := rfl
@[simp] theorem wbHalt_stats : (wbHalt s).stats = s.stats := rfl
end wbHalt

section idBubble
@[simp] theorem idBubble_cfg : (idBubble s).cfg = s.cfg := rfl
@[simp] theorem idBubble_regs : (idBubble s).regs = s.regs := rfl
@[simp] theorem idBubble_pc : (idBubble s).pc = s.pc := rfl
@[simp] theorem idBubble_clock : (idBubble s).clock = s.clock := rfl
@[simp] theorem idBubble_fw : (idBubble s).fw = s.fw := rfl
@[simp] theorem idBubble_pred : (idBubble s).pred = s.pred := rfl
@[simp] theorem idBubble_ctl : (idBubble s).ctl = s.ctl := rfl
@[simp] theorem idBubble_run : (idBubble s).run = s.run := rfl
@[simp] theorem idBubble_win : (idBubble s).win = s.win := rfl
@[simp] theorem idBubble_mem : (idBubble s).mem = s.mem := rfl
@[simp] theorem idBubble_logicalSize : (idBubble s).logicalSize = s.logicalSize := rfl
@[simp] theorem idBubble_stats : (idBubble s).stats = s.stats := rfl
@[simp] theorem idBubble_wires : (idBubble s).wires = s.wires := rfl
end idBubble

section exBubble
@[simp] theorem exBubble_cfg : (exBubble s).cfg = s.cfg := rfl
@[simp] theorem exBubble_regs : (exBubble s).regs = s.regs := rfl
@[simp] theorem exBubble_pc : (exBubble s).pc = s.pc := rfl
@[simp] theorem exBubble_clock : (exBubble s).clock = s.clock := rfl
@[simp] theorem exBubble_fw : (exBubble s).fw = s.fw := rfl
@[simp] theorem exBubble_pred : (exBubble s).pred = s.pred := rfl
@[simp] theorem exBubble_ctl : (exBubble s).ctl = s.ctl := rfl
@[simp] theorem exBubble_run : (exBubble s).run = s.run := rfl
@[simp] theorem exBubble_win : (exBubble s).win = s.win := rfl
@[simp] theorem exBubble_mem : (exBubble s).mem = s.mem := rfl
@[simp] theorem exBubble_logicalSize : (exBubble s).logicalSize = s.logicalSize := rfl
@[simp] theorem exBubble_stats : (exBubble s).stats = s.stats := rfl
@[simp] theorem exBubble_wires : (exBubble s).wires = s.wires := rfl
end exBubble

section memBubble
@[simp] theorem memBubble_cfg : (memBubble s).cfg = s.cfg := rfl
@[simp] theorem memBubble_regs : (memBubble s).regs = s.regs := rfl
@[simp] theorem memBubble_pc : (memBubble s).pc = s.pc := rfl
@[simp] theorem memBubble_clock : (memBubble s).clock = s.clock := rfl
@[simp] theorem memBubble_fw : (memBubble s).fw = s.fw := rfl
@[simp] theorem memBubble_pred : (memBubble s).pred = s.pred := rfl
@[simp] theorem memBubble_ctl : (memBubble s).ctl = s.ctl := rfl
@[simp] theorem memBubble_run : (memBubble s).run = s.run := rfl
@[simp] theorem memBubble_win : (memBubble s).win = s.win := rfl
@[simp] theorem memBubble_mem : (memBubble s).mem = s.mem := rfl
@[simp] theorem memBubble_logicalSize : (memBubble s).logicalSize = s.logicalSize := rfl
@[simp] theorem memBubble_stats : (memBubble s).stats = s.stats := rfl
@[simp] theorem memBubble_wires : (memBubble s).wires = s.wires := rfl
end memBubble

section requestStall
variable (p : Stage) (n : Nat)
@[simp] theorem requestStall_cfg : (requestStall p n s).cfg = s.cfg := rfl
@[simp] theorem requestStall_regs : (requestStall p n s).regs = s.regs := rfl
@[simp] theorem requestStall_pc : (requestStall p n s).pc = s.pc := rfl
@[simp] theorem requestStall_pipe : (requestStall p n s).pipe = s.pipe := rfl
@[simp] theorem requestStall_fw : (requestStall p n s).fw = s.fw := rfl
@[simp] theorem requestStall_pred : (requestStall p n s).pred = s.pred := rfl
@[simp] theorem requestStall_ctl : (requestStall p n s).ctl = s.ctl := rfl
@[simp] theorem requestStall_run : (requestStall p n s).run = s.run := rfl
@[simp] theorem requestStall_win : (requestStall p n s).win = s.win := rfl
@[simp] theorem requestStall_mem : (requestStall p n s).mem = s.mem := rfl
@[simp] theorem requestStall_logicalSize : (requestStall p n s).logicalSize = s.logicalSize := rfl
@[simp] theorem requestStall_stats : (requestStall p n s).stats = s.stats := rfl
@[simp] theorem requestStall_wires : (requestStall p n s).wires = s.wires := rfl
end requestStall

section requestDefer
variable (p : Stage) (n : Nat)
@[simp] theorem requestDefer_cfg : (requestDefer p n s).cfg = s.cfg := rfl
@[simp] theorem requestDefer_regs : (requestDefer p n s).regs = s.regs := rfl
@[simp] theorem requestDefer_pc : (requestDefer p n s).pc = s.pc := rfl
@[simp] theorem requestDefer_pipe : (requestDefer p n s).pipe = s.pipe := rfl
@[simp] theorem requestDefer_fw : (requestDefer p n s).fw = s.fw := rfl
@[simp] theorem requestDefer_pred : (requestDefer p n s).pred = s.pred := rfl
@[simp] theorem requestDefer_ctl : (requestDefer p n s).ctl = s.ctl := rfl
@[simp] theorem requestDefer_run : (requestDefer p n s).run = s.run := rfl
@[simp] theorem requestDefer_win : (requestDefer p n s).win = s.win := rfl
@[simp] theorem requestDefer_mem : (requestDefer p n s).mem = s.mem := rfl
@[simp] theorem requestDefer_logicalSize : (requestDefer p n s).logicalSize = s.logicalSize := rfl
@[simp] theorem requestDefer_stats : (requestDefer p n s).stats = s.stats := rfl
@[simp] theorem requestDefer_wires : (requestDefer p n s).wires = s.wires := rfl
end requestDefer

section setMemoryBusy
variable (n : Nat)
@[simp] theorem setMemoryBusy_cfg : (setMemoryBusy n s).cfg = s.cfg := rfl
@[simp] theorem setMemoryBusy_regs : (setMemoryBusy n s).regs = s.regs := rfl
@[simp] theorem setMemoryBusy_pc : (setMemoryBusy n s).pc = s.pc := rfl
@[simp] theorem setMemoryBusy_pipe : (setMemoryBusy n s).pipe = s.pipe := rfl
@[simp] theorem setMemoryBusy_fw : (setMemoryBusy n s).fw = s.fw := rfl
@[simp] theorem setMemoryBusy_pred : (setMemoryBusy n s).pred = s.pred := rfl
@[simp] theorem setMemoryBusy_ctl : (setMemoryBusy n s).ctl = s.ctl := rfl
@[simp] theorem setMemoryBusy_run : (setMemoryBusy n s).run = s.run := rfl
@[simp] theorem setMemoryBusy_win : (setMemoryBusy n s).win = s.win := rfl
@[simp] theorem setMemoryBusy_mem : (setMemoryBusy n s).mem = s.mem := rfl
@[simp] theorem setMemoryBusy_logicalSize : (setMemoryBusy n s).logicalSize = s.logicalSize := rfl
@[simp] theorem setMemoryBusy_stats : (setMemoryBusy n s).stats = s.stats := rfl
@[simp] theorem setMemoryBusy_wires : (setMemoryBusy n s).wires = s.wires := rfl
end setMemoryBusy

section tickStep
@[simp] theorem tickStep_cfg : (tickStep s).cfg = s.cfg := rfl
@[simp] theorem tickStep_regs : (tickStep s).regs = s.regs := rfl
@[simp] theorem tickStep_pc : (tickStep s).pc = s.pc := rfl
@[simp] theorem tickStep_pipe : (tickStep s).pipe = s.pipe := rfl
@[simp] theorem tickStep_fw : (tickStep s).fw = s.fw := rfl
@[simp] theorem tickStep_pred : (tickStep s).pred = s.pred := rfl
@[simp] theorem tickStep_ctl : (tickStep s).ctl = s.ctl := rfl
@[simp] theorem tickStep_run : (tickStep s).run = s.run := rfl
@[simp] theorem tickStep_win : (tickStep s).win = s.win := rfl
@[simp] theorem tickStep_mem : (tickStep s).mem = s.mem := rfl
@[simp] theorem tickStep_logicalSize : (tickStep s).logicalSize = s.logicalSize := rfl
@[simp] theorem tickStep_stats : (tickStep s).stats = s.stats := rfl
@[simp] theorem tickStep_wires : (tickStep s).wires = s.wires := rfl
end tickStep

section memoryStall
@[simp] theorem memoryStall_cfg : (memoryStall s).cfg = s.cfg := rfl
@[simp] theorem memoryStall_regs : (memoryStall s).regs = s.regs := rfl
@[simp] theorem memoryStall_pc : (memoryStall s).pc = s.pc := rfl
@[simp] theorem memoryStall_pipe : (memoryStall s).pipe = s.pipe := rfl
@[simp] theorem memoryStall_fw : (memoryStall s).fw = s.fw := rfl
@[simp] theorem memoryStall_pred : (memoryStall s).pred = s.pred := rfl
@[simp] theorem memoryStall_ctl : (memoryStall s).ctl = s.ctl := rfl
@[simp] theorem memoryStall_run : (memoryStall s).run = s.run := rfl
@[simp] theorem memoryStall_win : (memoryStall s).win = s.win := rfl
@[simp] theorem memoryStall_mem : (memoryStall s).mem = s.mem := rfl
@[simp] theorem memoryStall_logicalSize : (memoryStall s).logicalSize = s.logicalSize := rfl
@[simp] theorem memoryStall_stats : (memoryStall s).stats = s.stats := rfl
@[simp] theorem memoryStall_wires : (memoryStall s).wires = s.wires := rfl
end memoryStall

section windowReset
@[simp] theorem windowReset_cfg : (windowReset s).cfg = s.cfg := rfl
@[simp] theorem windowReset_regs : (windowReset s).regs = s.regs := rfl
@[simp] theorem windowReset_pc : (windowReset s).pc = s.pc := rfl
@[simp] theorem windowReset_pipe : (windowReset s).pipe = s.pipe := rfl
@[simp] theorem windowReset_clock : (windowReset s).clock = s.clock := rfl
@[simp] theorem windowReset_fw : (windowReset s).fw = s.fw := rfl
@[simp] theorem windowReset_pred : (windowReset s).pred = s.pred := rfl
@[simp] theorem windowReset_ctl : (windowReset s).ctl = s.ctl := rfl
@[simp] theorem windowReset_run : (windowReset s).run = s.run := rfl
@[simp] theorem windowReset_mem : (windowReset s).mem = s.mem := rfl
@[simp] theorem windowReset_logicalSize : (windowReset s).logicalSize = s.logicalSize := rfl
@[simp] theorem windowReset_stats : (windowReset s).stats = s.stats := rfl
@[simp] theorem windowReset_wires : (windowReset s).wires = s.wires := rfl
end windowReset

section joinStored
@[simp] theorem joinStored_cfg : (joinStored s).cfg = s.cfg := rfl
@[simp] theorem joinStored_regs : (joinStored s).regs = s.regs := rfl
@[simp] theorem joinStored_pc : (joinStored s).pc = s.pc := rfl
@[simp] theorem joinStored_pipe : (joinStored s).pipe = s.pipe := rfl
@[simp] theorem joinStored_clock : (joinStored s).clock = s.clock := rfl
@[simp] theorem joinStored_fw : (joinStored s).fw = s.fw := rfl
@[simp] theorem joinStored_pred : (joinStored s).pred = s.pred := rfl
@[simp] theorem joinStored_ctl : (joinStored s).ctl = s.ctl := rfl
@[simp] theorem joinStored_run : (joinStored s).run = s.run := rfl
@[simp] theorem joinStored_mem : (joinStored s).mem = s.mem := rfl
@[simp] theorem joinStored_logicalSize : (joinStored s).logicalSize = s.logicalSize := rfl
@[simp] theorem joinStored_stats : (joinStored s).stats = s.stats := rfl
@[simp] theorem joinStored_wires : (joinStored s).wires = s.wires := rfl
end joinStored

section hazard
variable (r : Nat)
@[simp] theorem hazard_cfg : (hazard r s).cfg = s.cfg := rfl
@[simp] theorem hazard_regs : (hazard r s).regs = s.regs := rfl
@[simp] theorem hazard_pc : (hazard r s).pc = s.pc := rfl
@[simp] theorem hazard_pipe : (hazard r s).pipe = s.pipe := rfl
@[simp] theorem hazard_fw : (hazard r s).fw = s.fw := rfl
@[simp] theorem hazard_pred : (hazard r s).pred = s.pred := rfl
@[simp] theorem hazard_ctl : (hazard r s).ctl = s.ctl := rfl
@[simp] theorem hazard_run : (hazard r s).run = s.run := rfl
@[simp] theorem hazard_win : (hazard r s).win = s.win := rfl
@[simp] theorem hazard_mem : (hazard r s).mem = s.mem := rfl
@[simp] theorem hazard_logicalSize : (hazard r s).logicalSize = s.logicalSize := rfl
@[simp] theorem hazard_wires : (hazard r s).wires = s.wires := rfl
end hazard

section hazardIf
variable (p : Bool) (r : Nat)
@[simp] theorem hazardIf_cfg : (hazardIf p r s).cfg = s.cfg := by unfold hazardIf; split <;> rfl
@[simp] theorem hazardIf_regs : (hazardIf p r s).regs = s.regs := by unfold hazardIf; split <;> rfl
@[simp] theorem hazardIf_pc : (hazardIf p r s).pc = s.pc := by unfold hazardIf; split <;> rfl
@[simp] theorem hazardIf_pipe : (hazardIf p r s).pipe = s.pipe := by unfold hazardIf; split <;> rfl
@[simp] theorem hazardIf_fw : (hazardIf p r s).fw = s.fw := by unfold hazardIf; split <;> rfl
@[simp] theorem hazardIf_pred : (hazardIf p r s).pred = s.pred := by unfold hazardIf; split <;> rfl
@[simp] theorem hazardIf_ctl : (hazardIf p r s).ctl = s.ctl := by unfold hazardIf; split <;> rfl
@[simp] theorem hazardIf_run : (hazardIf p r s).run = s.run := by unfold hazardIf; split <;> rfl
@[simp] theorem hazardIf_win : (hazardIf p r s).win = s.win := by unfold hazardIf; split <;> rfl
@[simp] theorem hazardIf_mem : (hazardIf p r s).mem = s.mem := by unfold hazardIf; split <;> rfl
@[simp] theorem hazardIf_logicalSize : (hazardIf p r s).logicalSize = s.logicalSize := by unfold hazardIf; split <;> rfl
@[simp] theorem hazardIf_wires : (hazardIf p r s).wires = s.wires := by unfold hazardIf; split <;> rfl
end hazardIf

section arbitrate
@[simp] theorem arbitrate_cfg : (arbitrate s).cfg = s.cfg := by unfold arbitrate; dsimp only; split <;> simp
@[simp] theorem arbitrate_regs : (arbitrate s).regs = s.regs := by unfold arbitrate; dsimp only; split <;> simp
@[simp] theorem arbitrate_pc : (arbitrate s).pc = s.pc := by unfold arbitrate; dsimp only; split <;> simp
@[simp] theorem arbitrate_pipe : (arbitrate s).pipe = s.pipe := by unfold arbitrate; dsimp only; split <;> simp
@[simp] theorem arbitrate_fw : (arbitrate s).fw = s.fw := by unfold arbitrate; dsimp only; split <;> simp
@[simp] theorem arbitrate_pred : (arbitrate s).pred = s.pred := by unfold arbitrate; dsimp only; split <;> simp
@[simp] theorem arbitrate_ctl : (arbitrate s).ctl = s.ctl := by unfold arbitrate; dsimp only; split <;> simp
@[simp] theorem arbitrate_run : (arbitrate s).run = s.run := by unfold arbitrate; dsimp only; split <;> simp
@[simp] theorem arbitrate_win : (arbitrate s).win = s.win := by unfold arbitrate; dsimp only; split <;> simp
@[simp] theorem arbitrate_mem : (arbitrate s).mem = s.mem := by unfold arbitrate; dsimp only; split <;> simp
@[simp] theorem arbitrate_logicalSize : (arbitrate s).logicalSize = s.logicalSize := by unfold arbitrate; dsimp only; split <;> simp
@[simp] theorem arbitrate_wires : (arbitrate s).wires = s.wires := by unfold arbitrate; dsimp only; split <;> simp
end arbitrate

section propagateStage
variable (p : Stage)
@[simp] theorem propagateStage_cfg : (propagateStage p s).cfg = s.cfg := by unfold propagateStage; split <;> rfl
@[simp] theorem propagateStage_regs : (propagateStage p s).regs = s.regs := by unfold propagateStage; split <;> rfl
@[simp] theorem propagateStage_pc : (propagateStage p s).pc = s.pc := by unfold propagateStage; split <;> rfl
@[simp] theorem propagateStage_clock : (propagateStage p s).clock = s.clock := by unfold propagateStage; split <;> rfl
@[simp] theorem propagateStage_fw : (propagateStage p s).fw = s.fw := by unfold propagateStage; split <;> rfl
@[simp] theorem propagateStage_pred : (propagateStage p s).pred = s.pred := by unfold propagateStage; split <;> rfl
@[simp] theorem propagateStage_ctl : (propagateStage p s).ctl = s.ctl := by unfold propagateStage; split <;> rfl
@[simp] theorem propagateStage_run : (propagateStage p s).run = s.run := by unfold propagateStage; split <;> rfl
@[simp] theorem propagateStage_win : (propagateStage p s).win = s.win := by unfold propagateStage; split <;> rfl
@[simp] theorem propagateStage_mem : (propagateStage p s).mem = s.mem := by unfold propagateStage; split <;> rfl
@[simp] theorem propagateStage_logicalSize : (propagateStage p s).logicalSize = s.logicalSize := by unfold propagateStage; split <;> rfl
@[simp] theorem propagateStage_stats : (propagateStage p s).stats = s.stats := by unfold propagateStage; split <;> rfl
@[simp] theorem propagateStage_wires : (propagateStage p s).wires = s.wires := by unfold propagateStage; split <;> rfl
end propagateStage

section propagate
@[simp] theorem propagate_cfg : (propagate s).cfg = s.cfg := by simp [propagate]
@[simp] theorem propagate_regs : (propagate s).regs = s.regs := by simp [propagate]
@[simp] theorem propagate_pc : (propagate s).pc = s.pc := by simp [propagate]
@[simp] theorem propagate_clock : (propagate s).clock = s.clock := by simp [propagate]
@[simp] theorem propagate_fw : (propagate s).fw = s.fw := by simp [propagate]
@[simp] theorem propagate_pred : (propagate s).pred = s.pred := by simp [propagate]
@[simp] theorem propagate_ctl : (propagate s).ctl = s.ctl := by simp [propagate]
@[simp] theorem propagate_run : (propagate s).run = s.run := by simp [propagate]
@[simp] theorem propagate_win : (propagate s).win = s.win := by simp [propagate]
@[simp] theorem propagate_mem : (propagate s).mem = s.mem := by simp [propagate]
@[simp] theorem propagate_logicalSize : (propagate s).logicalSize = s.logicalSize := by simp [propagate]
@[simp] theorem propagate_stats : (propagate s).stats = s.stats := by simp [propagate]
end propagate

section fetchBody
@[simp] theorem fetchBody_cfg : (fetchBody s).cfg = s.cfg := by unfold fetchBody; (repeat' split) <;> rfl
@[simp] theorem fetchBody_regs : (fetchBody s).regs = s.regs := by unfold fetchBody; (repeat' split) <;> rfl
@[simp] theorem fetchBody_clock : (fetchBody s).clock = s.clock := by unfold fetchBody; (repeat' split) <;> rfl
@[simp] theorem fetchBody_fw : (fetchBody s).fw = s.fw := by unfold fetchBody; (repeat' split) <;> rfl
@[simp] theorem fetchBody_pred : (fetchBody s).pred = s.pred := by unfold fetchBody; (repeat' split) <;> rfl
@[simp] theorem fetchBody_ctl : (fetchBody s).ctl = s.ctl := by unfold fetchBody; (repeat' split) <;> rfl
@[simp] theorem fetchBody_run : (fetchBody s).run = s.run := by unfold fetchBody; (repeat' split) <;> rfl
@[simp] theorem fetchBody_mem : (fetchBody s).mem = s.mem := by unfold fetchBody; (repeat' split) <;> rfl
@[simp] theorem fetchBody_logicalSize : (fetchBody s).logicalSize = s.logicalSize := by unfold fetchBody; (repeat' split) <;> rfl
@[simp] theorem fetchBody_stats : (fetchBody s).stats = s.stats := by unfold fetchBody; (repeat' split) <;> rfl
@[simp] theorem fetchBody_wires : (fetchBody s).wires = s.wires := by unfold fetchBody; (repeat' split) <;> rfl
end fetchBody

section haltSignal
@[simp] theorem haltSignal_cfg : (haltSignal s).cfg = s.cfg := by unfold haltSignal; split <;> rfl
@[simp] theorem haltSignal_regs : (haltSignal s).regs = s.regs := by unfold haltSignal; split <;> rfl
@[simp] theorem haltSignal_pc : (haltSignal s).pc = s.pc := by unfold haltSignal; split <;> rfl
@[simp] theorem haltSignal_pipe : (haltSignal s).pipe = s.pipe := by unfold haltSignal; split <;> rfl
@[simp] theorem haltSignal_clock : (haltSignal s).clock = s.clock := by unfold haltSignal; split <;> rfl
@[simp] theorem haltSignal_fw : (haltSignal s).fw = s.fw := by unfold haltSignal; split <;> rfl
@[simp] theorem haltSignal_pred : (haltSignal s).pred = s.pred := by unfold haltSignal; split <;> rfl
@[simp] theorem haltSignal_ctl : (haltSignal s).ctl = s.ctl := by unfold haltSignal; split <;> rfl
@[simp] theorem haltSignal_win : (haltSignal s).win = s.win := by unfold haltSignal; split <;> rfl
@[simp] theorem haltSignal_mem : (haltSignal s).mem = s.mem := by unfold haltSignal; split <;> rfl
@[simp] theorem haltSignal_logicalSize : (haltSignal s).logicalSize = s.logicalSize := by unfold haltSignal; split <;> rfl
@[simp] theorem haltSignal_stats : (haltSignal s).stats = s.stats := by unfold haltSignal; split <;> rfl
@[simp] theorem haltSignal_wires : (haltSignal s).wires = s.wires := by unfold haltSignal; split <;> rfl
end haltSignal

section memorySignal
@[simp] theorem memorySignal_cfg : (memorySignal s).cfg = s.cfg := by unfold memorySignal; split <;> rfl
@[simp] theorem memorySignal_regs : (memorySignal s).regs = s.regs := by unfold memorySignal; split <;> rfl
@[simp] theorem memorySignal_pc : (memorySignal s).pc = s.pc := by unfold memorySignal; split <;> rfl
@[simp] theorem memorySignal_pipe : (memorySignal s).pipe = s.pipe := by unfold memorySignal; split <;> rfl
@[simp] theorem memorySignal_fw : (memorySignal s).fw = s.fw := by unfold memorySignal; split <;> rfl
@[simp] theorem memorySignal_pred : (memorySignal s).pred = s.pred := by unfold memorySignal; split <;> rfl
@[simp] theorem memorySignal_ctl : (memorySignal s).ctl = s.ctl := by unfold memorySignal; split <;> rfl
@[simp] theorem memorySignal_run : (memorySignal s).run = s.run := by unfold memorySignal; split <;> rfl
@[simp] theorem memorySignal_win : (memorySignal s).win = s.win := by unfold memorySignal; split <;> rfl
@[simp] theorem memorySignal_mem : (memorySignal s).mem = s.mem := by unfold memorySignal; split <;> rfl
@[simp] theorem memorySignal_logicalSize : (memorySignal s).logicalSize = s.logicalSize := by unfold memorySignal; split <;> rfl
@[simp] theorem memorySignal_stats : (memorySignal s).stats = s.stats := by unfold memorySignal; split <;> rfl
@[simp] theorem memorySignal_wires : (memorySignal s).wires = s.wires := by unfold memorySignal; split <;> rfl
end memorySignal

section branchSignal
@[simp] theorem branchSignal_cfg : (branchSignal s).cfg = s.cfg := by unfold branchSignal; split <;> rfl
@[simp] theorem branchSignal_regs : (branchSignal s).regs = s.regs := by unfold branchSignal; split <;> rfl
@[simp] theorem branchSignal_pc : (branchSignal s).pc = s.pc := by unfold branchSignal; split <;> rfl
@[simp] theorem branchSignal_pipe : (branchSignal s).pipe = s.pipe := by unfold branchSignal; split <;> rfl
@[simp] theorem branchSignal_clock : (branchSignal s).clock = s.clock := by unfold branchSignal; split <;> rfl
@[simp] theorem branchSignal_fw : (branchSignal s).fw = s.fw := by unfold branchSignal; split <;> rfl
@[simp] theorem branchSignal_pred : (branchSignal s).pred = s.pred := by unfold branchSignal; split <;> rfl
@[simp] theorem branchSignal_run : (branchSignal s).run = s.run := by unfold branchSignal; split <;> rfl
@[simp] theorem branchSignal_win : (branchSignal s).win = s.win := by unfold branchSignal; split <;> rfl
@[simp] theorem branchSignal_mem : (branchSignal s).mem = s.mem := by unfold branchSignal; split <;> rfl
@[simp] theorem branchSignal_logicalSize : (branchSignal s).logicalSize = s.logicalSize := by unfold branchSignal; split <;> rfl
@[simp] theorem branchSignal_stats : (branchSignal s).stats = s.stats := by unfold branchSignal; split <;> rfl
@[simp] theorem branchSignal_wires : (branchSignal s).wires = s.wires := by unfold branchSignal; split <;> rfl
end branchSignal

section mispredict
variable (t : Word)
@[simp] theorem mispredict_cfg : (mispredict t s).cfg = s.cfg := rfl
@[simp] theorem mispredict_regs : (mispredict t s).regs = s.regs := rfl
@[simp] theorem mispredict_clock : (mispredict t s).clock = s.clock := rfl
@[simp] theorem mispredict_pred : (mispredict t s).pred = s.pred := rfl
@[simp] theorem mispredict_run : (mispredict t s).run = s.run := rfl
@[simp] theorem mispredict_mem : (mispredict t s).mem = s.mem := rfl
@[simp] theorem mispredict_logicalSize : (mispredict t s).logicalSize = s.logicalSize := rfl
@[simp] theorem mispredict_wires : (mispredict t s).wires = s.wires := rfl
end mispredict

section predictHit
@[simp] theorem predictHit_cfg : (predictHit s).cfg = s.cfg := rfl
@[simp] theorem predictHit_regs : (predictHit s).regs = s.regs := rfl
@[simp] theorem predictHit_pc : (predictHit s).pc = s.pc := rfl
@[simp] theorem predictHit_pipe : (predictHit s).pipe = s.pipe := rfl
@[simp] theorem predictHit_clock : (predictHit s).clock = s.clock := rfl
@[simp] theorem predictHit_fw : (predictHit s).fw = s.fw := rfl
@[simp] theorem predictHit_pred : (predictHit s).pred = s.pred := rfl
@[simp] theorem predictHit_run : (predictHit s).run = s.run := rfl
@[simp] theorem predictHit_win : (predictHit s).win = s.win := rfl
@[simp] theorem predictHit_mem : (predictHit s).mem = s.mem := rfl
@[simp] theorem predictHit_logicalSize : (predictHit s).logicalSize = s.logicalSize := rfl
@[simp] theorem predictHit_wires : (predictHit s).wires = s.wires := rfl
end predictHit

section redirect
variable (t : Word)
@[simp] theorem redirect_cfg : (redirect t s).cfg = s.cfg := rfl
@[simp] theorem redirect_regs : (redirect t s).regs = s.regs := rfl
@[simp] theorem redirect_clock : (redirect t s).clock = s.clock := rfl
@[simp] theorem redirect_fw : (redirect t s).fw = s.fw := rfl
@[simp] theorem redirect_pred : (redirect t s).pred = s.pred := rfl
@[simp] theorem redirect_ctl : (redirect t s).ctl = s.ctl := rfl
@[simp] theorem redirect_run : (redirect t s).run = s.run := rfl
@[simp] theorem redirect_mem : (redirect t s).mem = s.mem := rfl
@[simp] theorem redirect_logicalSize : (redirect t s).logicalSize = s.logicalSize := rfl
@[simp] theorem redirect_stats : (redirect t s).stats = s.stats := rfl
@[simp] theorem redirect_wires : (redirect t s).wires = s.wires := rfl
end redirect

section consult
@[simp] theorem consult_cfg : (consult s).cfg = s.cfg := by unfold consult; (repeat' split) <;> rfl
@[simp] theorem consult_regs : (consult s).regs = s.regs := by unfold consult; (repeat' split) <;> rfl
@[simp] theorem consult_clock : (consult s).clock = s.clock := by unfold consult; (repeat' split) <;> rfl
@[simp] theorem consult_fw : (consult s).fw = s.fw := by unfold consult; (repeat' split) <;> rfl
@[simp] theorem consult_ctl : (consult s).ctl = s.ctl := by unfold consult; (repeat' split) <;> rfl
@[simp] theorem consult_run : (consult s).run = s.run := by unfold consult; (repeat' split) <;> rfl
@[simp] theorem consult_mem : (consult s).mem = s.mem := by unfold consult; (repeat' split) <;> rfl
@[simp] theorem consult_logicalSize : (consult s).logicalSize = s.logicalSize := by unfold consult; (repeat' split) <;> rfl
@[simp] theorem consult_stats : (consult s).stats = s.stats := by unfold consult; (repeat' split) <;> rfl
@[simp] theorem consult_wires : (consult s).wires = s.wires := by unfold consult; (repeat' split) <;> rfl
end consult

section redirectFetch
@[simp] theorem redirectFetch_cfg : (redirectFetch s).cfg = s.cfg := by unfold redirectFetch; split <;> simp
@[simp] theorem redirectFetch_regs : (redirectFetch s).regs = s.regs := by unfold redirectFetch; split <;> simp
@[simp] theorem redirectFetch_clock : (redirectFetch s).clock = s.clock := by unfold redirectFetch; split <;> simp
@[simp] theorem redirectFetch_fw : (redirectFetch s).fw = s.fw := by unfold redirectFetch; split <;> simp
@[simp] theorem redirectFetch_ctl : (redirectFetch s).ctl = s.ctl := by unfold redirectFetch; split <;> simp
@[simp] theorem redirectFetch_run : (redirectFetch s).run = s.run := by unfold redirectFetch; split <;> simp
@[simp] theorem redirectFetch_mem : (redirectFetch s).mem = s.mem := by unfold redirectFetch; split <;> simp
@[simp] theorem redirectFetch_logicalSize : (redirectFetch s).logicalSize = s.logicalSize := by unfold redirectFetch; split <;> simp
@[simp] theorem redirectFetch_stats : (redirectFetch s).stats = s.stats := by unfold redirectFetch; split <;> simp
@[simp] theorem redirectFetch_wires : (redirectFetch s).wires = s.wires := by unfold redirectFetch; split <;> simp
end redirectFetch

section hazardStep
@[simp] theorem hazardStep_cfg : (hazardStep s).cfg = s.cfg := by unfold hazardStep; split <;> simp
@[simp] theorem hazardStep_regs : (hazardStep s).regs = s.regs := by unfold hazardStep; split <;> simp
@[simp] theorem hazardStep_pc : (hazardStep s).pc = s.pc := by unfold hazardStep; split <;> simp
@[simp] theorem hazardStep_pipe : (hazardStep s).pipe = s.pipe := by unfold hazardStep; split <;> simp
@[simp] theorem hazardStep_fw : (hazardStep s).fw = s.fw := by unfold hazardStep; split <;> simp
@[simp] theorem hazardStep_pred : (hazardStep s).pred = s.pred := by unfold hazardStep; split <;> simp
@[simp] theorem hazardStep_ctl : (hazardStep s).ctl = s.ctl := by unfold hazardStep; split <;> simp
@[simp] theorem hazardStep_run : (hazardStep s).run = s.run := by unfold hazardStep; split <;> simp
@[simp] theorem hazardStep_win : (hazardStep s).win = s.win := by unfold hazardStep; split <;> simp
@[simp] theorem hazardStep_mem : (hazardStep s).mem = s.mem := by unfold hazardStep; split <;> simp
@[simp] theorem hazardStep_logicalSize : (hazardStep s).logicalSize = s.logicalSize := by unfold hazardStep; split <;> simp
@[simp] theorem hazardStep_wires : (hazardStep s).wires = s.wires := by unfold hazardStep; split <;> simp
end hazardStep

section beginCycle
@[simp] theorem beginCycle_cfg : (beginCycle s).cfg = s.cfg := rfl
@[simp] theorem beginCycle_regs : (beginCycle s).regs = s.regs := rfl
@[simp] theorem beginCycle_pc : (beginCycle s).pc = s.pc := rfl
@[simp] theorem beginCycle_pipe : (beginCycle s).pipe = s.pipe := rfl
@[simp] theorem beginCycle_clock : (beginCycle s).clock = s.clock := rfl
@[simp] theorem beginCycle_fw : (beginCycle s).fw = s.fw := rfl
@[simp] theorem beginCycle_pred : (beginCycle s).pred = s.pred := rfl
@[simp] theorem beginCycle_ctl : (beginCycle s).ctl = s.ctl := rfl
@[simp] theorem beginCycle_run : (beginCycle s).run = s.run := rfl
@[simp] theorem beginCycle_win : (beginCycle s).win = s.win := rfl
@[simp] theorem beginCycle_mem : (beginCycle s).mem = s.mem := rfl
@[simp] theorem beginCycle_logicalSize : (beginCycle s).logicalSize = s.logicalSize := rfl
end beginCycle

section commit
variable (o : Bodies)
@[simp] theorem commit_cfg : (commit o s).cfg = s.cfg := rfl
@[simp] theorem commit_clock : (commit o s).clock = s.clock := rfl
@[simp] theorem commit_pred : (commit o s).pred = s.pred := rfl
@[simp] theorem commit_ctl : (commit o s).ctl = s.ctl := rfl
@[simp] theorem commit_run : (commit o s).run = s.run := rfl
@[simp] theorem commit_logicalSize : (commit o s).logicalSize = s.logicalSize := rfl
@[simp] theorem commit_stats : (commit o s).stats = s.stats := rfl
end commit

end Sys2Proof.Machine
end

