-- ==== Sys2Proof/Laws/Ops.lean ====
section
/-! SUPPORT. What each shared operation does, said once: registers, the ALU's comparisons, the stage
parts with several outcomes, counters, slots and tables. -/

namespace Sys2Proof.Machine

/-! ## Registers (R22) -/

@[simp] theorem readReg_zero (s : State) : s.readReg 0 = 0 := rfl

@[simp] theorem writeReg_zero (s : State) (v : Word) : s.writeReg 0 v = s := rfl

theorem readReg_writeReg_self (s : State) {r : RegIdx} (h : r ≠ 0) (v : Word) :
    (s.writeReg r v).readReg r = v := by
  unfold State.readReg State.writeReg
  rw [if_neg h, if_neg h]
  simp

theorem readReg_writeReg_other (s : State) {r q : RegIdx} (h : q ≠ r) (v : Word) :
    (s.writeReg r v).readReg q = s.readReg q := by
  have hn : r.toNat ≠ q.toNat := fun e => h (BitVec.eq_of_toNat_eq e.symm)
  unfold State.readReg State.writeReg
  split
  · rfl
  · split
    · rfl
    · simp [hn]

theorem writeReg_regs_congr {s t : State} (h : s.regs = t.regs) (r : RegIdx) (v : Word) :
    (s.writeReg r v).regs = (t.writeReg r v).regs := by
  unfold State.writeReg
  split <;> simp [h]

/-! ## The ALU (R120 to R122) -/

theorem shiftAmount_eq (b : Word) : shiftAmount b = b.toNat % 32 := by
  simp [shiftAmount, BitVec.extractLsb'_toNat]

theorem shiftAmount_zeroExtend (x : BitVec 5) : shiftAmount (x.zeroExtend 32) = x.toNat := by
  simp [shiftAmount]; omega

theorem aluEq_eq (a b : Word) : aluEq a b = decide (a = b) := by
  have h : a - b = 0#32 ↔ a = b := by bv_omega
  simp only [aluEq, aluZero, alu, ← h]
  rfl

theorem ltu_eq (a b : Word) : ltu a b = decide (a.toNat < b.toNat) := by
  simp [ltu, aluNeg, BitVec.ult]

theorem lts_signOfDifference (a b : Word) : lts .signOfDifference a b = (a - b).msb := rfl

theorem lts_trueSigned (a b : Word) : lts .trueSigned a b = decide (a.toInt < b.toInt) := by
  simp [lts, BitVec.slt]

/-! ## ID's branch signal (R303, R304) -/

theorem assertBranch_fresh {s : State} (h : s.wires.idFresh = true) (target : Word) :
    assertBranch target s = { s with wires.idBranch := some target } := by
  simp [assertBranch, h]

theorem assertBranch_again {s : State} (h : s.wires.idFresh = false) (target : Word) :
    assertBranch target s = s := by
  simp [assertBranch, h]

/-! ## EX's resolution (R165, R307, R376) -/

theorem exBranch_predicted {s : State} (h : s.pred.pValid = true) (imm : Word) (taken : Bool) :
    exBranch imm taken s = { s with
      pipe.exMem := { s.pipe.curEx with out := ofBool taken }
      wires.exBranch := some (taken, s.pipe.curEx.pc + if taken then imm else 4#32) } := by
  simp [exBranch, h, exPass]

theorem exBranch_unpredicted {s : State} (h : s.pred.pValid = false) (imm : Word) (taken : Bool) :
    exBranch imm taken s =
      { s with wires.exStop := some (.controllerInvariant s.pipe.curEx.pc) } := by
  simp [exBranch, h]

/-! ## MEM's accesses (R60, R61, R191, R192, R308, R374) -/

theorem inBounds_iff (capacity : Nat) (addr : Word) (n : Width) :
    inBounds capacity addr n = true ↔ addr.toNat + n.bytes ≤ capacity := by
  simp [inBounds]

theorem memLoad_within {s : State} {n : Width}
    (h : s.pipe.curMem.out.toNat + n.bytes ≤ s.cfg.memCapacity) (rd : RegIdx) (se : Bool) :
    memLoad rd n se s = { s with
      pipe.memWb := { s.pipe.curMem with
        out := widen (memValue s.mem s.pipe.curMem.out.toNat n) n se }
      fw := s.fw.publishMem rd (widen (memValue s.mem s.pipe.curMem.out.toNat n) n se) } := by
  unfold memLoad memRead
  rw [if_pos ((inBounds_iff _ _ _).mpr h)]

theorem memLoad_beyond {s : State} {n : Width}
    (h : s.cfg.memCapacity < s.pipe.curMem.out.toNat + n.bytes) (rd : RegIdx) (se : Bool) :
    memLoad rd n se s = { s with wires.memStop := some (.outOfBounds s.pipe.curMem.out) } := by
  unfold memLoad memRead
  rw [if_neg (fun e => Nat.not_le.mpr h ((inBounds_iff _ _ _).mp e))]

theorem memStore_within {s : State} {n : Width}
    (h : s.pipe.curMem.out.toNat + n.bytes ≤ s.cfg.memCapacity) :
    memStore n s = { s with
      mem := memPutBytes s.mem s.pipe.curMem.out.toNat (storeBytes s.pipe.curMem.b n)
      pipe.memWb := s.pipe.curMem
      wires.stored := accessAddrs s.pipe.curMem.out n } := by
  unfold memStore memWrite
  rw [if_pos ((inBounds_iff _ _ _).mpr h)]

theorem memStore_beyond {s : State} {n : Width}
    (h : s.cfg.memCapacity < s.pipe.curMem.out.toNat + n.bytes) :
    memStore n s = { s with wires.memStop := some (.outOfBounds s.pipe.curMem.out) } := by
  unfold memStore memWrite
  rw [if_neg (fun e => Nat.not_le.mpr h ((inBounds_iff _ _ _).mp e))]

theorem accessAddrs_eq (addr : Word) (n : Width) :
    accessAddrs addr n = (List.range n.bytes).map (addr.toNat + ·) := by
  cases n <;> rfl

/-! ## Counters (R220 to R224) -/

theorem get_add (c : StageCounters) (p q : Stage) (n : Nat) :
    (c.add p n).get q = c.get q + if q = p then n else 0 := by
  cases p <;> cases q <;> rfl

theorem get_decay (c : StageCounters) (p : Stage) : c.decay.get p = c.get p - 1 := by
  cases p <;> rfl

theorem isStalled_false {s : State} {p : Stage} :
    s.isStalled p = false ↔ s.clock.stall.get p = 0 := by
  unfold State.isStalled
  rw [decide_eq_false_iff_not, Nat.not_lt, Nat.le_zero]

theorem runs_ifetch {s : State} :
    s.runs .ifetch = true ↔ s.clock.stall.ifetch = 0 ∧ s.run.halting = false := by
  simp [State.runs, isStalled_false, StageCounters.get]

theorem runs_id {s : State} :
    s.runs .id = true ↔ s.clock.stall.id = 0 ∧ s.run.halting = false := by
  simp [State.runs, isStalled_false, StageCounters.get]

theorem runs_ex {s : State} :
    s.runs .ex = true ↔ s.clock.stall.ex = 0 ∧ s.run.halting = false := by
  simp [State.runs, isStalled_false, StageCounters.get]

theorem runs_mem {s : State} : s.runs .mem = true ↔ s.clock.stall.mem = 0 := by
  simp [State.runs, isStalled_false, StageCounters.get]

theorem runs_wb {s : State} : s.runs .wb = true ↔ s.clock.stall.wb = 0 := by
  simp [State.runs, isStalled_false, StageCounters.get]

/-! ## Forwarding (R270 to R273) -/

@[simp] theorem publishEx_zero (t : FwTable) (v : Word) : t.publishEx 0 v = t := rfl
@[simp] theorem publishMem_zero (t : FwTable) (v : Word) : t.publishMem 0 v = t := rfl
@[simp] theorem lookup_zero (t : FwTable) (p : BypassPriority) : t.lookup p 0 = none := rfl

@[simp] theorem publishEx_visEx (t : FwTable) (r : RegIdx) (v : Word) :
    (t.publishEx r v).visEx = t.visEx := by unfold FwTable.publishEx; split <;> rfl
@[simp] theorem publishEx_visMem (t : FwTable) (r : RegIdx) (v : Word) :
    (t.publishEx r v).visMem = t.visMem := by unfold FwTable.publishEx; split <;> rfl
@[simp] theorem publishMem_visEx (t : FwTable) (r : RegIdx) (v : Word) :
    (t.publishMem r v).visEx = t.visEx := by unfold FwTable.publishMem; split <;> rfl
@[simp] theorem publishMem_visMem (t : FwTable) (r : RegIdx) (v : Word) :
    (t.publishMem r v).visMem = t.visMem := by unfold FwTable.publishMem; split <;> rfl

theorem publishEx_pendEx (t : FwTable) {r : RegIdx} (h : r ≠ 0) (v : Word) :
    (t.publishEx r v).pendEx = ⟨r, v⟩ := by simp only [FwTable.publishEx, if_neg h]

theorem publishMem_pendMem (t : FwTable) {r : RegIdx} (h : r ≠ 0) (v : Word) :
    (t.publishMem r v).pendMem = ⟨r, v⟩ := by simp only [FwTable.publishMem, if_neg h]

/-! ## Hazards (R341) -/

theorem hazardMatch_iff (c : Decoded) (l : Latch) :
    hazardMatch c l = true ↔ l.inst.rd ≠ 0 ∧ (l.inst.rd = c.rs1 ∨ l.inst.rd = c.rs2) := by
  simp [hazardMatch]

/-! ## Outcomes of the management step -/

theorem resolve_none {s : State} (h : s.wires.exBranch = none) : resolve s = (s, false) := by
  simp [resolve, h]

theorem update_pending {c : Config} {p : Predictor} (h : p.pValid = true) (taken : Bool) :
    ∃ q, update c taken p = some q ∧ q.pValid = false := by
  unfold update
  rw [if_pos h]
  refine ⟨_, rfl, ?_⟩
  split <;> rfl

theorem manage_wbHalt {s : State} {f : Option Fault} (h : s.wires.wbHalt = some f) :
    manage s = retireHalt f s := by
  simp [manage, h]

theorem manage_halting {s : State} (h : s.wires.wbHalt = none)
    (hh : (haltSignal s).run.halting = true) :
    manage s = memorySignal (haltSignal s) := by
  simp [manage, h, hh]

theorem manage_flow {s : State} (h : s.wires.wbHalt = none)
    (hh : (haltSignal s).run.halting = false) :
    manage s = manageFlow (memorySignal (haltSignal s)) := by
  simp [manage, h, hh]

theorem manageFlow_flushed {s t : State} (h : resolve (branchSignal s) = (t, true)) :
    manageFlow s = t := by
  simp [manageFlow, h]

theorem manageFlow_goesOn {s t : State} (h : resolve (branchSignal s) = (t, false)) :
    manageFlow s = hazardStep (redirectFetch t) := by
  simp [manageFlow, h]

/-! ## ID's operand (R302, R276) -/

@[simp] theorem operand_zero (s : State) : s.operand 0 = 0 := rfl

theorem operand_stall {s : State} (h : s.cfg.hazardPolicy = .stall) (r : RegIdx) :
    s.operand r = s.readReg r := by
  unfold State.operand
  split
  · rename_i hr; subst hr; rfl
  · simp only [h]

/-- Under FORWARD a forwarded value overrides the register file's. -/
theorem operand_forward {s : State} (h : s.cfg.hazardPolicy = .forward) {r : RegIdx} (hr : r ≠ 0) :
    s.operand r = (s.fw.lookup s.cfg.bypassPriority r).getD (s.readReg r) := by
  simp only [State.operand, if_neg hr, h]

/-! ## Signals of the management step (R323, R326, R327) and the window (R71, R294) -/

theorem memorySignal_idle {s : State} (h : s.wires.memReq = false) : memorySignal s = s := by
  simp [memorySignal, h]

theorem memorySignal_request {s : State} (h : s.wires.memReq = true) :
    memorySignal s = memoryStall s := by
  simp [memorySignal, h]

theorem branchSignal_idle {s : State} (h : s.wires.idBranch = none) : branchSignal s = s := by
  simp [branchSignal, h]

theorem redirectFetch_jump {s : State} {target : Word} (h : s.wires.idJump = some target) :
    redirectFetch s = redirect target s := by
  simp [redirectFetch, h]

theorem redirectFetch_consult {s : State} (h : s.wires.idJump = none) :
    redirectFetch s = consult s := by
  simp [redirectFetch, h]

theorem predict_pending {c : Config} {pc : Word} {p : Predictor} (h : p.pValid = true) :
    predict c pc p = none := by
  simp [predict, h]

/-- The block held is the one fetched from. -/
theorem fetchWindow_held {s : State} (hv : s.win.valid = true)
    (hc : s.win.cursor < s.cfg.windowWords) : fetchWindow s = s.win := by
  simp [fetchWindow, hv, Nat.ne_of_lt hc]

/-- A window that is not valid, or used up, is loaded afresh. -/
theorem fetchWindow_fresh {s : State}
    (h : s.win.valid = false ∨ s.win.cursor = s.cfg.windowWords) :
    fetchWindow s = loadBlock s := by
  rcases h with h | h <;> simp [fetchWindow, h]

theorem mem_joinStored {s : State} {x : Nat} :
    x ∈ (joinStored s).win.dirty ↔ x ∈ s.win.dirty ∨ x ∈ s.wires.stored := by
  simp only [joinStored, mem_foldl_setInsert, or_comm]

end Sys2Proof.Machine
end

