-- ==== Sys2Proof/Laws/PerInstr.lean ====
section
/-! SUPPORT. The family `Record`: the record ID writes stands for the instruction it was made of, so
EX, MEM and WB act on the instruction ID decoded (30_encoding.md R85, 10_state.md R29). -/

namespace Sys2Proof.Laws.Record

/-- The record of `i` decoded from `w` gives `i` back; an ILLEGAL instruction is the one of its
word. -/
def Statement (i : Instr) : Prop :=
  ∀ w : Word, (∀ v, i = .illegal v → v = w) → (i.record w).instr w = some i

theorem halt : Statement (.halt) := fun _ _ => rfl

theorem lui (rd : RegIdx) (imm : Word) : Statement (.lui rd imm) := fun _ _ => rfl

theorem auipc (rd : RegIdx) (imm : Word) : Statement (.auipc rd imm) := fun _ _ => rfl

theorem jal (rd : RegIdx) (imm : Word) : Statement (.jal rd imm) := fun _ _ => rfl

theorem jalr (rd rs1 : RegIdx) (imm : Word) : Statement (.jalr rd rs1 imm) := fun _ _ => rfl

theorem beq (rs1 rs2 : RegIdx) (imm : Word) : Statement (.beq rs1 rs2 imm) := fun _ _ => rfl

theorem bne (rs1 rs2 : RegIdx) (imm : Word) : Statement (.bne rs1 rs2 imm) := fun _ _ => rfl

theorem blt (rs1 rs2 : RegIdx) (imm : Word) : Statement (.blt rs1 rs2 imm) := fun _ _ => rfl

theorem bge (rs1 rs2 : RegIdx) (imm : Word) : Statement (.bge rs1 rs2 imm) := fun _ _ => rfl

theorem bltu (rs1 rs2 : RegIdx) (imm : Word) : Statement (.bltu rs1 rs2 imm) := fun _ _ => rfl

theorem bgeu (rs1 rs2 : RegIdx) (imm : Word) : Statement (.bgeu rs1 rs2 imm) := fun _ _ => rfl

theorem lb (rd rs1 : RegIdx) (imm : Word) : Statement (.lb rd rs1 imm) := fun _ _ => rfl

theorem lh (rd rs1 : RegIdx) (imm : Word) : Statement (.lh rd rs1 imm) := fun _ _ => rfl

theorem lw (rd rs1 : RegIdx) (imm : Word) : Statement (.lw rd rs1 imm) := fun _ _ => rfl

theorem lbu (rd rs1 : RegIdx) (imm : Word) : Statement (.lbu rd rs1 imm) := fun _ _ => rfl

theorem lhu (rd rs1 : RegIdx) (imm : Word) : Statement (.lhu rd rs1 imm) := fun _ _ => rfl

theorem sb (rs1 rs2 : RegIdx) (imm : Word) : Statement (.sb rs1 rs2 imm) := fun _ _ => rfl

theorem sh (rs1 rs2 : RegIdx) (imm : Word) : Statement (.sh rs1 rs2 imm) := fun _ _ => rfl

theorem sw (rs1 rs2 : RegIdx) (imm : Word) : Statement (.sw rs1 rs2 imm) := fun _ _ => rfl

theorem addi (rd rs1 : RegIdx) (imm : Word) : Statement (.addi rd rs1 imm) := fun _ _ => rfl

theorem slti (rd rs1 : RegIdx) (imm : Word) : Statement (.slti rd rs1 imm) := fun _ _ => rfl

theorem sltiu (rd rs1 : RegIdx) (imm : Word) : Statement (.sltiu rd rs1 imm) := fun _ _ => rfl

theorem xori (rd rs1 : RegIdx) (imm : Word) : Statement (.xori rd rs1 imm) := fun _ _ => rfl

theorem ori (rd rs1 : RegIdx) (imm : Word) : Statement (.ori rd rs1 imm) := fun _ _ => rfl

theorem andi (rd rs1 : RegIdx) (imm : Word) : Statement (.andi rd rs1 imm) := fun _ _ => rfl

theorem slli (rd rs1 : RegIdx) (shamt : BitVec 5) : Statement (.slli rd rs1 shamt) := fun _ _ => rfl

theorem srli (rd rs1 : RegIdx) (shamt : BitVec 5) : Statement (.srli rd rs1 shamt) := fun _ _ => rfl

theorem srai (rd rs1 : RegIdx) (shamt : BitVec 5) : Statement (.srai rd rs1 shamt) := fun _ _ => rfl

theorem add (rd rs1 rs2 : RegIdx) : Statement (.add rd rs1 rs2) := fun _ _ => rfl

theorem sub (rd rs1 rs2 : RegIdx) : Statement (.sub rd rs1 rs2) := fun _ _ => rfl

theorem sll (rd rs1 rs2 : RegIdx) : Statement (.sll rd rs1 rs2) := fun _ _ => rfl

theorem slt (rd rs1 rs2 : RegIdx) : Statement (.slt rd rs1 rs2) := fun _ _ => rfl

theorem sltu (rd rs1 rs2 : RegIdx) : Statement (.sltu rd rs1 rs2) := fun _ _ => rfl

theorem xor (rd rs1 rs2 : RegIdx) : Statement (.xor rd rs1 rs2) := fun _ _ => rfl

theorem srl (rd rs1 rs2 : RegIdx) : Statement (.srl rd rs1 rs2) := fun _ _ => rfl

theorem sra (rd rs1 rs2 : RegIdx) : Statement (.sra rd rs1 rs2) := fun _ _ => rfl

theorem or (rd rs1 rs2 : RegIdx) : Statement (.or rd rs1 rs2) := fun _ _ => rfl

theorem and (rd rs1 rs2 : RegIdx) : Statement (.and rd rs1 rs2) := fun _ _ => rfl

theorem illegal (word : Word) : Statement (.illegal word) := by
  intro w h
  simp [Instr.record, Decoded.instr, Decoded.of, h word rfl]

end Sys2Proof.Laws.Record
end

