-- ==== Sys2Proof/Laws/Step.lean ====
section
/-! SUPPORT. What one step can do, said once: presenting an instruction to a stage, the four stage
parts of every meaning by class, the five bodies, their commit, and the cycle. -/

namespace Sys2Proof.Machine

/-! ## Sequencing -/

theorem andThen_next {o : Host.Outcome State Fault Refusal}
    {f : State → Host.Outcome State Fault Refusal} {t : State} :
    andThen o f = .next t ↔ ∃ u, o = .next u ∧ f u = .next t := by
  cases o <;> simp [andThen]

@[simp] theorem andThen_of_next (u : State) (f : State → Host.Outcome State Fault Refusal) :
    andThen (.next u) f = f u := rfl

/-! ## A stage presenting its instruction -/

@[simp] theorem inPhase_phase (s : State) (p : Phase) : (s.inPhase p).wires.phase = p := rfl
@[simp] theorem inPhase_idFresh (s : State) (p : Phase) :
    (s.inPhase p).wires.idFresh = s.wires.idFresh := rfl
@[simp] theorem inPhase_readReg (s : State) (p : Phase) (r : RegIdx) :
    (s.inPhase p).readReg r = s.readReg r := rfl
@[simp] theorem inPhase_operand (s : State) (p : Phase) (r : RegIdx) :
    (s.inPhase p).operand r = s.operand r := rfl

section byStage
variable (s : State) (f g h k : State → State)
@[simp] theorem byStage_id : byStage (s.inPhase .id) f g h k = .next (f (s.inPhase .id)) := rfl
@[simp] theorem byStage_ex : byStage (s.inPhase .ex) f g h k = .next (g (s.inPhase .ex)) := rfl
@[simp] theorem byStage_mem : byStage (s.inPhase .mem) f g h k = .next (h (s.inPhase .mem)) := rfl
@[simp] theorem byStage_wb : byStage (s.inPhase .wb) f g h k = .next (k (s.inPhase .wb)) := rfl
end byStage

theorem eq_inPhase (s : State) : s = s.inPhase s.wires.phase := rfl

/-- Every meaning answers a next state, in every stage. -/
theorem exec_answers (i : Instr) (s : State) : ∃ t, exec i s = .next t := by
  rw [eq_inPhase s]
  generalize s.wires.phase = p
  cases p <;> cases i <;> exact ⟨_, rfl⟩

/-! ## ID, by class (R302, R304) -/

theorem exec_id_plain {i : Instr} (hj : i.kind.isJump = false) (hb : i.kind.isBranch = false)
    (s : State) : exec i (s.inPhase .id) = .next (idDecode i (s.inPhase .id)) := by
  cases i <;> first | rfl | exact (Bool.false_ne_true hj.symm).elim |
    exact (Bool.false_ne_true hb.symm).elim

theorem exec_id_jump {i : Instr} (hj : i.kind.isJump = true) (s : State) :
    ∃ target, exec i (s.inPhase .id) = .next (assertJump target (idDecode i (s.inPhase .id))) := by
  cases i <;> first | exact ⟨_, rfl⟩ | cases hj

theorem exec_id_branch {i : Instr} (hb : i.kind.isBranch = true) (s : State) :
    ∃ target, exec i (s.inPhase .id) = .next (assertBranch target (idDecode i (s.inPhase .id))) := by
  cases i <;> first | exact ⟨_, rfl⟩ | cases hb

/-! ## EX, by class (R305 to R307) -/

theorem exec_ex_result {i : Instr} (h : i.kind.isAlu = true ∨ i.kind.isJump = true) (w : Word)
    (s : State) :
    ∃ out, exec i (s.inPhase .ex) = .next (exResult (i.record w).rd out (s.inPhase .ex)) := by
  cases i <;> first | exact ⟨_, rfl⟩ | (rcases h with h | h <;> cases h)

theorem exec_ex_access {i : Instr} (h : i.kind.isLoad = true ∨ i.kind.isStore = true) (w : Word)
    (s : State) :
    exec i (s.inPhase .ex) = .next (exAddress (i.record w).imm (s.inPhase .ex)) := by
  cases i <;> first | rfl | (rcases h with h | h <;> cases h)

theorem exec_ex_branch {i : Instr} (h : i.kind.isBranch = true) (w : Word) (s : State) :
    ∃ taken, exec i (s.inPhase .ex) = .next (exBranch (i.record w).imm taken (s.inPhase .ex)) := by
  cases i <;> first | exact ⟨_, rfl⟩ | cases h

/-! ## MEM, by class (R308, R309) -/

theorem exec_mem_pass {i : Instr} (hl : i.kind.isLoad = false) (hs : i.kind.isStore = false)
    (s : State) : exec i (s.inPhase .mem) = .next (memPass (s.inPhase .mem)) := by
  cases i <;> first | rfl | exact (Bool.false_ne_true hl.symm).elim |
    exact (Bool.false_ne_true hs.symm).elim

theorem exec_mem_load {i : Instr} (h : i.kind.isLoad = true) (w : Word) (s : State) :
    ∃ n se, exec i (s.inPhase .mem) = .next (memLoad (i.record w).rd n se (s.inPhase .mem)) := by
  cases i <;> first | exact ⟨_, _, rfl⟩ | cases h

theorem exec_mem_store {i : Instr} (h : i.kind.isStore = true) (s : State) :
    ∃ n, exec i (s.inPhase .mem) = .next (memStore n (s.inPhase .mem)) := by
  cases i <;> first | exact ⟨_, rfl⟩ | cases h

/-! ## WB (R310) -/

theorem wbWrite_zero (s : State) : wbWrite 0 s = s := by
  simp [wbWrite, State.writeReg]

theorem exec_wb {i : Instr} (h : i ≠ .halt) (w : Word) (s : State) :
    exec i (s.inPhase .wb) = .next (wbWrite (i.record w).rd (s.inPhase .wb)) := by
  cases i <;> first
    | rfl
    | exact absurd rfl h

theorem exec_wb_halt (s : State) :
    exec .halt (s.inPhase .wb) = .next (wbHalt (s.inPhase .wb)) := rfl

/-! ## The records of latches stand for the instructions they were made of (R29, R85) -/

theorem record_instr (i : Instr) (w : Word) (h : ∀ v, i = .illegal v → v = w) :
    (i.record w).instr w = some i := by
  cases i <;> first | rfl | (rw [h _ rfl]; rfl)

theorem decodeWord_illegal (h w : Word) : ∀ v, decodeWord h w = .illegal v → v = w := by
  have ite : ∀ {c : Prop} [Decidable c] {a b : Instr}, (∀ v, a = .illegal v → v = w) →
      (∀ v, b = .illegal v → v = w) → ∀ v, (if c then a else b) = .illegal v → v = w := by
    intro c _ a b ha hb
    split <;> assumption
  unfold decodeWord decodeBranch decodeLoad decodeStore decodeAluImm decodeAluReg
  repeat' refine ite ?_ ?_
  all_goals (intro v e; cases e; try rfl)

theorem decoded_instr (h w : Word) :
    ((decodeWord h w).record w).instr w = some (decodeWord h w) :=
  record_instr _ _ (decodeWord_illegal h w)

@[simp] theorem nop_instr (w : Word) : Decoded.nop.instr w = none := rfl

@[simp] theorem record_kind (i : Instr) (w : Word) : (i.record w).kind = i.kind := by
  cases i <;> rfl

/-! ## The bodies and their commit (R291, R294) -/

/-- What step 2 answers: the commit of what the five bodies answer, each from the state after
propagation. -/
theorem stageBodies_next {s t : State} (h : stageBodies s = .next t) :
    ∃ w m e d, writeBackBody s = .next w ∧ memoryBody s = .next m ∧ executeBody s = .next e ∧
      decodeBody { s with regs := w.regs } = .next d ∧ t = commit ⟨fetchBody s, d, e, m, w⟩ s := by
  unfold stageBodies at h
  obtain ⟨w, hw, h⟩ := andThen_next.mp h
  obtain ⟨m, hm, h⟩ := andThen_next.mp h
  obtain ⟨e, he, h⟩ := andThen_next.mp h
  obtain ⟨d, hd, h⟩ := andThen_next.mp h
  exact ⟨w, m, e, d, hw, hm, he, hd, (Host.Outcome.next.inj h).symm⟩

theorem writeBackBody_answers (s : State) : ∃ t, writeBackBody s = .next t := by
  unfold writeBackBody
  split
  · split
    · exact exec_answers _ _
    · exact ⟨_, rfl⟩
  · exact ⟨_, rfl⟩

theorem memoryBody_answers (s : State) : ∃ t, memoryBody s = .next t := by
  unfold memoryBody
  split
  · split
    · exact exec_answers _ _
    · exact ⟨_, rfl⟩
  · exact ⟨_, rfl⟩

theorem executeBody_answers (s : State) : ∃ t, executeBody s = .next t := by
  unfold executeBody
  split
  · split
    · exact ⟨_, rfl⟩
    · split
      · exact exec_answers _ _
      · exact ⟨_, rfl⟩
  · exact ⟨_, rfl⟩

theorem decodeBody_answers (s : State) : ∃ t, decodeBody s = .next t := by
  unfold decodeBody
  split
  · split
    · exact exec_answers _ _
    · exact ⟨_, rfl⟩
  · exact ⟨_, rfl⟩

section commit
variable (s : State) (o : Bodies)
@[simp] theorem commit_pc : (commit o s).pc = o.ifetch.pc := rfl
@[simp] theorem commit_mem : (commit o s).mem = o.mem.mem := rfl
@[simp] theorem commit_regs : (commit o s).regs = o.wb.regs := rfl
@[simp] theorem commit_ifId : (commit o s).pipe.ifId = o.ifetch.pipe.ifId := rfl
@[simp] theorem commit_idEx : (commit o s).pipe.idEx = o.id.pipe.idEx := rfl
@[simp] theorem commit_exMem : (commit o s).pipe.exMem = o.ex.pipe.exMem := rfl
@[simp] theorem commit_memWb : (commit o s).pipe.memWb = o.mem.pipe.memWb := rfl
@[simp] theorem commit_curId : (commit o s).pipe.curId = s.pipe.curId := rfl
@[simp] theorem commit_curEx : (commit o s).pipe.curEx = s.pipe.curEx := rfl
@[simp] theorem commit_curMem : (commit o s).pipe.curMem = s.pipe.curMem := rfl
@[simp] theorem commit_curWb : (commit o s).pipe.curWb = s.pipe.curWb := rfl
@[simp] theorem commit_fw : (commit o s).fw =
    { s.fw with pendEx := o.ex.fw.pendEx, pendMem := o.mem.fw.pendMem } := rfl
@[simp] theorem commit_idJump : (commit o s).wires.idJump = o.id.wires.idJump := rfl
@[simp] theorem commit_idBranch : (commit o s).wires.idBranch = o.id.wires.idBranch := rfl
@[simp] theorem commit_exBranch : (commit o s).wires.exBranch = o.ex.wires.exBranch := rfl
@[simp] theorem commit_exHalt : (commit o s).wires.exHalt = o.ex.wires.exHalt := rfl
@[simp] theorem commit_memReq : (commit o s).wires.memReq = o.ex.wires.memReq := rfl
@[simp] theorem commit_exStop : (commit o s).wires.exStop = o.ex.wires.exStop := rfl
@[simp] theorem commit_memStop : (commit o s).wires.memStop = o.mem.wires.memStop := rfl
@[simp] theorem commit_stored : (commit o s).wires.stored = o.mem.wires.stored := rfl
@[simp] theorem commit_wbHalt : (commit o s).wires.wbHalt = o.wb.wires.wbHalt := rfl
@[simp] theorem commit_idFresh : (commit o s).wires.idFresh = s.wires.idFresh := rfl
@[simp] theorem commit_idRan : (commit o s).wires.idRan = s.wires.idRan := rfl
theorem commit_win : (commit o s).win =
    { o.ifetch.win with
      dirty := o.mem.wires.stored.foldl (fun d a => setInsert a d) o.ifetch.win.dirty } := rfl
end commit

/-! ## The cycle and the step (R290, log 5) -/

theorem finishCycle_run (s : State) (h : s.stop = none) :
    finishCycle s = { manage (tickStep (forwardStep s)) with wires := .idle } := by
  simp [finishCycle, h]

theorem finishCycle_stop (s : State) (f : Fault) (h : s.stop = some f) :
    finishCycle s = { endRun f s with wires := .idle } := by
  simp [finishCycle, h]

theorem cycle_next {s t : State} (h : cycle s = .next t) :
    ∃ u, stageBodies (propagate (beginCycle s)) = .next u ∧ t = finishCycle u := by
  obtain ⟨u, hu, h⟩ := andThen_next.mp h
  exact ⟨u, hu, (Host.Outcome.next.inj h).symm⟩

theorem step_running {s : State} (h : s.run.done = false) : step s = cycle s := by
  simp [step, clockStep, h]

/-- A step of a run that has ended: it stays, or answers the fault. -/
theorem step_ended {s : State} (h : s.run.done = true) :
    step s = match s.run.faulted with
      | none => .next s
      | some f => .fault f := by
  unfold step clockStep
  exact if_pos h

end Sys2Proof.Machine
end

