-- ==== Sys2Proof/Machine/Asm.lean ====
section
/-! DEFINITION. Assembler syntax (30_encoding.md R94) and pseudo-instructions (R95), as printed
text and as expansions. The hardware has no part in either. -/

namespace Sys2Proof.Machine

/-- A register written `x0` to `x31` (R94). -/
def regText (r : RegIdx) : String := "x" ++ Nat.repr r.toNat

/-- A signed decimal value. -/
def intText (i : Int) : String := if i < 0 then "-" ++ Nat.repr i.natAbs else Nat.repr i.natAbs

/-- A sign-extended immediate or byte offset, as a signed number (R94). -/
def immText (w : Word) : String := intText w.toInt

/-- `op rd, rs1, rs2` (R94). -/
def text3 (op : String) (a b c : String) : String := op ++ " " ++ a ++ ", " ++ b ++ ", " ++ c

/-- `op rd, imm` (R94). -/
def text2 (op : String) (a b : String) : String := op ++ " " ++ a ++ ", " ++ b

/-- `op rd, imm(rs1)` (R94). -/
def textMem (op : String) (a : String) (imm : Word) (base : String) : String :=
  op ++ " " ++ a ++ ", " ++ immText imm ++ "(" ++ base ++ ")"

/-- The assembly text of an instruction (R94). HALT and ILLEGAL have no mnemonic an assembler
takes; they are shown by their names. -/
def instrText : Instr → String
  | .halt => "HALT"
  | .lui rd imm => text2 "lui" (regText rd) (Nat.repr (imm.toNat / 4096))
  | .auipc rd imm => text2 "auipc" (regText rd) (Nat.repr (imm.toNat / 4096))
  | .jal rd imm => text2 "jal" (regText rd) (immText imm)
  | .jalr rd rs1 imm => text3 "jalr" (regText rd) (regText rs1) (immText imm)
  | .beq rs1 rs2 imm => text3 "beq" (regText rs1) (regText rs2) (immText imm)
  | .bne rs1 rs2 imm => text3 "bne" (regText rs1) (regText rs2) (immText imm)
  | .blt rs1 rs2 imm => text3 "blt" (regText rs1) (regText rs2) (immText imm)
  | .bge rs1 rs2 imm => text3 "bge" (regText rs1) (regText rs2) (immText imm)
  | .bltu rs1 rs2 imm => text3 "bltu" (regText rs1) (regText rs2) (immText imm)
  | .bgeu rs1 rs2 imm => text3 "bgeu" (regText rs1) (regText rs2) (immText imm)
  | .lb rd rs1 imm => textMem "lb" (regText rd) imm (regText rs1)
  | .lh rd rs1 imm => textMem "lh" (regText rd) imm (regText rs1)
  | .lw rd rs1 imm => textMem "lw" (regText rd) imm (regText rs1)
  | .lbu rd rs1 imm => textMem "lbu" (regText rd) imm (regText rs1)
  | .lhu rd rs1 imm => textMem "lhu" (regText rd) imm (regText rs1)
  | .sb rs1 rs2 imm => textMem "sb" (regText rs2) imm (regText rs1)
  | .sh rs1 rs2 imm => textMem "sh" (regText rs2) imm (regText rs1)
  | .sw rs1 rs2 imm => textMem "sw" (regText rs2) imm (regText rs1)
  | .addi rd rs1 imm => text3 "addi" (regText rd) (regText rs1) (immText imm)
  | .slti rd rs1 imm => text3 "slti" (regText rd) (regText rs1) (immText imm)
  | .sltiu rd rs1 imm => text3 "sltiu" (regText rd) (regText rs1) (immText imm)
  | .xori rd rs1 imm => text3 "xori" (regText rd) (regText rs1) (immText imm)
  | .ori rd rs1 imm => text3 "ori" (regText rd) (regText rs1) (immText imm)
  | .andi rd rs1 imm => text3 "andi" (regText rd) (regText rs1) (immText imm)
  | .slli rd rs1 shamt => text3 "slli" (regText rd) (regText rs1) (Nat.repr shamt.toNat)
  | .srli rd rs1 shamt => text3 "srli" (regText rd) (regText rs1) (Nat.repr shamt.toNat)
  | .srai rd rs1 shamt => text3 "srai" (regText rd) (regText rs1) (Nat.repr shamt.toNat)
  | .add rd rs1 rs2 => text3 "add" (regText rd) (regText rs1) (regText rs2)
  | .sub rd rs1 rs2 => text3 "sub" (regText rd) (regText rs1) (regText rs2)
  | .sll rd rs1 rs2 => text3 "sll" (regText rd) (regText rs1) (regText rs2)
  | .slt rd rs1 rs2 => text3 "slt" (regText rd) (regText rs1) (regText rs2)
  | .sltu rd rs1 rs2 => text3 "sltu" (regText rd) (regText rs1) (regText rs2)
  | .xor rd rs1 rs2 => text3 "xor" (regText rd) (regText rs1) (regText rs2)
  | .srl rd rs1 rs2 => text3 "srl" (regText rd) (regText rs1) (regText rs2)
  | .sra rd rs1 rs2 => text3 "sra" (regText rd) (regText rs1) (regText rs2)
  | .or rd rs1 rs2 => text3 "or" (regText rd) (regText rs1) (regText rs2)
  | .and rd rs1 rs2 => text3 "and" (regText rd) (regText rs1) (regText rs2)
  | .illegal _ => "ILLEGAL"

/-- The standard pseudo-instructions (R95). -/
inductive Pseudo where
  | nop
  | li (rd : RegIdx) (imm : Word)
  | mv (rd rs : RegIdx)
  | not (rd rs : RegIdx)
  | neg (rd rs : RegIdx)
  | seqz (rd rs : RegIdx)
  | snez (rd rs : RegIdx)
  | j (off : Word)
  | jalRa (off : Word)
  | jr (rs : RegIdx)
  | ret
  | beqz (rs : RegIdx) (off : Word)
  | bnez (rs : RegIdx) (off : Word)
  | blez (rs : RegIdx) (off : Word)
  | bgtz (rs : RegIdx) (off : Word)
  | bgt (a b : RegIdx) (off : Word)
  | ble (a b : RegIdx) (off : Word)
  | bgtu (a b : RegIdx) (off : Word)
  | bleu (a b : RegIdx) (off : Word)
  deriving DecidableEq, Repr

/-- The low 12 bits of a constant, sign-extended: what `li`'s second instruction adds (R95). -/
def lo12 (imm : Word) : Word := (imm.extractLsb' 0 12).signExtend 32

/-- The instructions a pseudo-instruction stands for (R95). -/
def Pseudo.expand : Pseudo → List Instr
  | .nop => [.addi 0 0 0]
  | .li rd imm =>
    if imm12 imm then [.addi rd 0 imm] else [.lui rd (imm - lo12 imm), .addi rd rd (lo12 imm)]
  | .mv rd rs => [.addi rd rs 0]
  | .not rd rs => [.xori rd rs 0xFFFFFFFF#32]
  | .neg rd rs => [.sub rd 0 rs]
  | .seqz rd rs => [.sltiu rd rs 1]
  | .snez rd rs => [.sltu rd 0 rs]
  | .j off => [.jal 0 off]
  | .jalRa off => [.jal 1 off]
  | .jr rs => [.jalr 0 rs 0]
  | .ret => [.jalr 0 1 0]
  | .beqz rs off => [.beq rs 0 off]
  | .bnez rs off => [.bne rs 0 off]
  | .blez rs off => [.bge 0 rs off]
  | .bgtz rs off => [.blt 0 rs off]
  | .bgt a b off => [.blt b a off]
  | .ble a b off => [.bge b a off]
  | .bgtu a b off => [.bltu b a off]
  | .bleu a b off => [.bgeu b a off]

end Sys2Proof.Machine
end

