-- ==== Sys2Proof/Tests/Slice0.lean ====
section
/-! SUPPORT. The model's own tests. Expected values come from the spec's vectors
(95_test_vectors.md V1 to V56) or are worked out by hand from the rule a test names. After them, for every
obligation with hypotheses, a theorem that shows a concrete input meeting them. -/

namespace Sys2Proof.Tests

open Sys2Proof.Machine

/-! ## WellFormed refuses an ill-formed term, one for each check -/

theorem test_wf_imm12 : (Instr.addi 1 0 0x7FF#32).wf = true ∧ (Instr.addi 1 0 0x800#32).wf = false ∧
    (Instr.lw 1 0 0xFFFFF7FF#32).wf = false ∧ (Instr.sb 1 0 0x800#32).wf = false := by decide
theorem test_wf_immB : (Instr.beq 0 0 0xFFE#32).wf = true ∧ (Instr.beq 0 0 3#32).wf = false ∧
    (Instr.bne 0 0 0x1000#32).wf = false := by decide
theorem test_wf_immU : (Instr.lui 1 0x1000#32).wf = true ∧ (Instr.lui 1 0x800#32).wf = false ∧
    (Instr.auipc 1 1#32).wf = false := by decide
theorem test_wf_immJ : (Instr.jal 1 0xFFFFE#32).wf = true ∧ (Instr.jal 1 1#32).wf = false ∧
    (Instr.jal 1 0x100000#32).wf = false := by decide
theorem test_wf_illegal : (Instr.illegal 0#32).wf = true ∧ (Instr.illegal 0x13#32).wf = false := by
  decide
theorem test_encodable_halt_word : (Instr.addi 10 0 255#32).wf = true ∧
    (Instr.addi 10 0 255#32).encodable 0x0FF00513#32 = false ∧
    (Instr.addi 10 0 255#32).encodable 0#32 = true := by decide

/-! ## Decoding: words written out field by field from R83 and R86 to R92 -/

/-- `decode` under the vectors' HALT_WORD. -/
def dec (w : Word) : Instr := decodeWord 0x0FF00513#32 w

-- U and J formats: imm, rd, opcode. JAL +2050 = 0x802: bit 11 and bit 1 of the offset.
theorem test_decode_upper :
    dec (0b10000000000000000001#20 ++ 0b00101#5 ++ 0b0110111#7) = .lui 5 0x80001000#32 ∧
    dec (0b00000000000000000001#20 ++ 0b11111#5 ++ 0b0010111#7) = .auipc 31 0x1000#32 := by decide
theorem test_decode_jumps :
    dec (0b0#1 ++ 0b0000000001#10 ++ 0b1#1 ++ 0b00000000#8 ++ 0b00001#5 ++ 0b1101111#7) =
      .jal 1 0x802#32 ∧
    dec (0b1#1 ++ 0b1111111100#10 ++ 0b1#1 ++ 0b11111111#8 ++ 0b00000#5 ++ 0b1101111#7) =
      .jal 0 0xFFFFFFF8#32 ∧
    dec (0b000000000001#12 ++ 0b00100#5 ++ 0b000#3 ++ 0b00001#5 ++ 0b1100111#7) =
      .jalr 1 4 1#32 := by decide
-- B format: imm[12], imm[10:5], rs2, rs1, funct3, imm[4:1], imm[11].
theorem test_decode_branches :
    dec (0b0#1 ++ 0b000000#6 ++ 0b00010#5 ++ 0b00001#5 ++ 0b000#3 ++ 0b0100#4 ++ 0b0#1 ++
      0b1100011#7) = .beq 1 2 8#32 ∧
    dec (0b1#1 ++ 0b111111#6 ++ 0b00000#5 ++ 0b00001#5 ++ 0b001#3 ++ 0b1100#4 ++ 0b1#1 ++
      0b1100011#7) = .bne 1 0 0xFFFFFFF8#32 ∧
    dec (0b0#1 ++ 0b000000#6 ++ 0b00010#5 ++ 0b00001#5 ++ 0b100#3 ++ 0b0000#4 ++ 0b1#1 ++
      0b1100011#7) = .blt 1 2 0x800#32 ∧
    dec (0b0#1 ++ 0b100000#6 ++ 0b00010#5 ++ 0b00001#5 ++ 0b101#3 ++ 0b0000#4 ++ 0b0#1 ++
      0b1100011#7) = .bge 1 2 0x400#32 ∧
    dec (0b1#1 ++ 0b000000#6 ++ 0b00010#5 ++ 0b00001#5 ++ 0b110#3 ++ 0b0000#4 ++ 0b0#1 ++
      0b1100011#7) = .bltu 1 2 0xFFFFF000#32 ∧
    dec (0b0#1 ++ 0b000001#6 ++ 0b00010#5 ++ 0b00001#5 ++ 0b111#3 ++ 0b0001#4 ++ 0b0#1 ++
      0b1100011#7) = .bgeu 1 2 0x22#32 := by decide
theorem test_decode_loads :
    dec (0b100000000000#12 ++ 0b00100#5 ++ 0b000#3 ++ 0b00101#5 ++ 0b0000011#7) =
      .lb 5 4 0xFFFFF800#32 ∧
    dec (0b000000000100#12 ++ 0b00100#5 ++ 0b001#3 ++ 0b00111#5 ++ 0b0000011#7) = .lh 7 4 4#32 ∧
    dec (0b000000001000#12 ++ 0b00100#5 ++ 0b010#3 ++ 0b01001#5 ++ 0b0000011#7) = .lw 9 4 8#32 ∧
    dec (0b000000001011#12 ++ 0b00100#5 ++ 0b100#3 ++ 0b01011#5 ++ 0b0000011#7) =
      .lbu 11 4 11#32 ∧
    dec (0b000000000101#12 ++ 0b00100#5 ++ 0b101#3 ++ 0b01100#5 ++ 0b0000011#7) =
      .lhu 12 4 5#32 := by decide
-- S format: imm[11:5], rs2, rs1, funct3, imm[4:0].
theorem test_decode_stores :
    dec (0b0000001#7 ++ 0b00010#5 ++ 0b00100#5 ++ 0b000#3 ++ 0b00011#5 ++ 0b0100011#7) =
      .sb 4 2 0x23#32 ∧
    dec (0b0000000#7 ++ 0b00010#5 ++ 0b00100#5 ++ 0b001#3 ++ 0b00100#5 ++ 0b0100011#7) =
      .sh 4 2 4#32 ∧
    dec (0b1111111#7 ++ 0b00001#5 ++ 0b00100#5 ++ 0b010#3 ++ 0b11000#5 ++ 0b0100011#7) =
      .sw 4 1 0xFFFFFFF8#32 := by decide
theorem test_decode_immediates :
    dec (0b100000000000#12 ++ 0b00010#5 ++ 0b000#3 ++ 0b00001#5 ++ 0b0010011#7) =
      .addi 1 2 0xFFFFF800#32 ∧
    dec (0b000000000001#12 ++ 0b00010#5 ++ 0b010#3 ++ 0b00001#5 ++ 0b0010011#7) = .slti 1 2 1#32 ∧
    dec (0b111111111111#12 ++ 0b00010#5 ++ 0b011#3 ++ 0b00001#5 ++ 0b0010011#7) =
      .sltiu 1 2 0xFFFFFFFF#32 ∧
    dec (0b000000000011#12 ++ 0b00010#5 ++ 0b100#3 ++ 0b00001#5 ++ 0b0010011#7) = .xori 1 2 3#32 ∧
    dec (0b000000000101#12 ++ 0b00010#5 ++ 0b110#3 ++ 0b00001#5 ++ 0b0010011#7) = .ori 1 2 5#32 ∧
    dec (0b011111111111#12 ++ 0b00010#5 ++ 0b111#3 ++ 0b00001#5 ++ 0b0010011#7) =
      .andi 1 2 0x7FF#32 := by decide
theorem test_decode_immediate_shifts :
    dec (0b0000000#7 ++ 0b11111#5 ++ 0b00010#5 ++ 0b001#3 ++ 0b00001#5 ++ 0b0010011#7) =
      .slli 1 2 31 ∧
    dec (0b0000000#7 ++ 0b00100#5 ++ 0b00010#5 ++ 0b101#3 ++ 0b00001#5 ++ 0b0010011#7) =
      .srli 1 2 4 ∧
    dec (0b0100000#7 ++ 0b00100#5 ++ 0b00010#5 ++ 0b101#3 ++ 0b00001#5 ++ 0b0010011#7) =
      .srai 1 2 4 ∧
    dec (0b0100000#7 ++ 0b00100#5 ++ 0b00010#5 ++ 0b001#3 ++ 0b00001#5 ++ 0b0010011#7) =
      .illegal 0x40411093#32 := by decide
theorem test_decode_registers :
    dec (0b0000000#7 ++ 0b00011#5 ++ 0b00010#5 ++ 0b000#3 ++ 0b00001#5 ++ 0b0110011#7) =
      .add 1 2 3 ∧
    dec (0b0100000#7 ++ 0b00011#5 ++ 0b00010#5 ++ 0b000#3 ++ 0b00001#5 ++ 0b0110011#7) =
      .sub 1 2 3 ∧
    dec (0b0000000#7 ++ 0b00011#5 ++ 0b00010#5 ++ 0b001#3 ++ 0b00001#5 ++ 0b0110011#7) =
      .sll 1 2 3 ∧
    dec (0b0000000#7 ++ 0b00011#5 ++ 0b00010#5 ++ 0b010#3 ++ 0b00001#5 ++ 0b0110011#7) =
      .slt 1 2 3 ∧
    dec (0b0000000#7 ++ 0b00011#5 ++ 0b00010#5 ++ 0b011#3 ++ 0b00001#5 ++ 0b0110011#7) =
      .sltu 1 2 3 := by decide
theorem test_decode_registers_rest :
    dec (0b0000000#7 ++ 0b00011#5 ++ 0b00010#5 ++ 0b100#3 ++ 0b00001#5 ++ 0b0110011#7) =
      .xor 1 2 3 ∧
    dec (0b0000000#7 ++ 0b00011#5 ++ 0b00010#5 ++ 0b101#3 ++ 0b00001#5 ++ 0b0110011#7) =
      .srl 1 2 3 ∧
    dec (0b0100000#7 ++ 0b00011#5 ++ 0b00010#5 ++ 0b101#3 ++ 0b00001#5 ++ 0b0110011#7) =
      .sra 1 2 3 ∧
    dec (0b0000000#7 ++ 0b00011#5 ++ 0b00010#5 ++ 0b110#3 ++ 0b00001#5 ++ 0b0110011#7) =
      .or 1 2 3 ∧
    dec (0b0000000#7 ++ 0b00011#5 ++ 0b00010#5 ++ 0b111#3 ++ 0b00001#5 ++ 0b0110011#7) =
      .and 1 2 3 := by decide
-- R86, R91, R92, V14: the HALT word, the zero word, FENCE, ECALL, funct3 holes, another funct7.
theorem test_decode_sentinels :
    dec 0x0FF00513#32 = .halt ∧ dec 0#32 = .illegal 0#32 ∧
    dec 0x0000000F#32 = .illegal 0x0000000F#32 ∧ dec 0x00000073#32 = .illegal 0x00000073#32 ∧
    dec (0b010#3 ++ 0b00000#5 ++ 0b1100011#7 |>.zeroExtend 32) = .illegal 0x2063#32 ∧
    dec 0x02000033#32 = .illegal 0x02000033#32 := by decide
-- V2, V14, V16, V17, V50, V51, P1 to P4.
theorem test_decode_vector_words :
    dec 0x00A00093#32 = .addi 1 0 10#32 ∧ dec 0xFFF08093#32 = .addi 1 1 0xFFFFFFFF#32 ∧
    dec 0x00150533#32 = .add 10 10 1 ∧ dec 0x800000B7#32 = .lui 1 0x80000000#32 ∧
    dec 0x00C000EF#32 = .jal 1 12#32 ∧ dec 0x001200E7#32 = .jalr 1 4 1#32 ∧
    dec 0xFE009CE3#32 = .bne 1 0 0xFFFFFFF8#32 ∧ dec 0x0020C663#32 = .blt 1 2 12#32 ∧
    dec 0x0000A183#32 = .lw 3 1 0#32 ∧ dec 0x00525603#32 = .lhu 12 4 5#32 ∧
    dec 0x0020A023#32 = .sw 1 2 0#32 ∧ dec 0x00221223#32 = .sh 4 2 4#32 := by decide
theorem test_decode_table_word :
    decodeTableWord 32 0x00008067 = some (.jalr 0 1 0#32) ∧
    decodeTableWord 32 0x0FF00513 = some .halt ∧
    decodeTableWord 32 0 = some (.illegal 0#32) := by decide
theorem test_decode_bytes :
    decodeBytes 0#32 [0x13#8, 0x05#8, 0x10#8, 0x00#8, 0xAA#8] = .ok (.addi 10 0 1#32, [0xAA#8]) ∧
    decodeBytes 0#32 [0x13#8, 0x05#8, 0x10#8] = .error (.truncated 3) := by decide

/-! ## What each instruction does in EX and MEM (V10 to V15, V51 to V51c) -/

/-- The next state of an outcome. -/
def got (o : Host.Outcome State Fault Refusal) : Option State :=
  match o with
  | .next t => some t
  | _ => none

/-- A state whose EX latch holds the operands A and B at pc 0x100, a prediction pending. -/
def exState (c : SignedCmp) (a b : Word) : State :=
  { State.reset with
    cfg.signedCmp := c
    pipe.curEx := { Latch.empty with a := a, b := b, pc := 0x100#32, valid := true }
    pred.pValid := true
    wires.phase := .ex }

/-- What EX computes into `out`, under both settings of SIGNED_CMP. -/
def out2 (i : Instr) (a b : Word) : Option Word × Option Word :=
  ((got (exec i (exState .signOfDifference a b))).map (·.pipe.exMem.out),
    (got (exec i (exState .trueSigned a b))).map (·.pipe.exMem.out))

/-- Both settings give this. -/
def both (v : Word) : Option Word × Option Word := (some v, some v)

theorem test_add : out2 (.add 1 2 3) 0x7FFFFFFF#32 1#32 = both 0x80000000#32 ∧
    out2 (.add 1 2 3) 0xFFFFFFFF#32 1#32 = both 0#32 := by decide
theorem test_sub : out2 (.sub 1 2 3) 0#32 1#32 = both 0xFFFFFFFF#32 ∧
    out2 (.sub 1 2 3) 0x80000000#32 1#32 = both 0x7FFFFFFF#32 := by decide
theorem test_sll : out2 (.sll 1 2 3) 1#32 0x20#32 = both 1#32 ∧
    out2 (.sll 1 2 3) 0x12345678#32 0x24#32 = both 0x23456780#32 := by decide
theorem test_srl : out2 (.srl 1 2 3) 0x80000000#32 0x1F#32 = both 1#32 ∧
    out2 (.srl 1 2 3) 0x80000000#32 0x21#32 = both 0x40000000#32 := by decide
theorem test_sra : out2 (.sra 1 2 3) 0x80000000#32 4#32 = both 0xF8000000#32 ∧
    out2 (.sra 1 2 3) 0x7FFFFFF0#32 4#32 = both 0x07FFFFFF#32 := by decide
theorem test_xor : out2 (.xor 1 2 3) 0xFF00FF00#32 0x0FF00FF0#32 = both 0xF0F0F0F0#32 := by decide
theorem test_or : out2 (.or 1 2 3) 0xF0F0F0F0#32 0x0F0F0F0F#32 = both 0xFFFFFFFF#32 := by decide
theorem test_and : out2 (.and 1 2 3) 0xF0F0F0F0#32 0xFF00FF00#32 = both 0xF000F000#32 := by decide
theorem test_slt : out2 (.slt 1 2 3) 0xFFFFFFFF#32 0#32 = both 1#32 ∧
    out2 (.slt 1 2 3) 5#32 5#32 = both 0#32 := by decide
theorem test_slt_overflow : out2 (.slt 1 2 3) 0x80000000#32 1#32 = (some 0#32, some 1#32) ∧
    out2 (.slt 1 2 3) 1#32 0x80000000#32 = (some 1#32, some 0#32) := by decide
theorem test_sltu : out2 (.sltu 1 2 3) 0#32 0xFFFFFFFF#32 = both 1#32 ∧
    out2 (.sltu 1 2 3) 7#32 7#32 = both 0#32 := by decide
theorem test_addi : out2 (.addi 1 2 1#32) 0xFFFFFFFF#32 0#32 = both 0#32 ∧
    out2 (.addi 1 2 0xFFFFF800#32) 0#32 0#32 = both 0xFFFFF800#32 := by decide
theorem test_slti : out2 (.slti 1 2 0#32) 0xFFFFFFFF#32 0#32 = both 1#32 ∧
    out2 (.slti 1 2 1#32) 0x80000000#32 0#32 = (some 0#32, some 1#32) := by decide
theorem test_sltiu : out2 (.sltiu 1 2 0xFFFFFFFF#32) 0xFFFFFFFE#32 0#32 = both 1#32 ∧
    out2 (.sltiu 1 2 1#32) 0#32 0#32 = both 1#32 := by decide
theorem test_xori : out2 (.xori 1 2 0xFFFFFFFF#32) 0x12345678#32 0#32 = both 0xEDCBA987#32 := by
  decide
theorem test_ori : out2 (.ori 1 2 0xFFFFF800#32) 0#32 0#32 = both 0xFFFFF800#32 := by decide
theorem test_andi : out2 (.andi 1 2 0x7FF#32) 0xFFFFFFFF#32 0#32 = both 0x7FF#32 ∧
    out2 (.andi 1 2 0xFFFFFFF0#32) 0x12345678#32 0#32 = both 0x12345670#32 := by decide
theorem test_slli : out2 (.slli 1 2 31) 1#32 0#32 = both 0x80000000#32 ∧
    out2 (.slli 1 2 1) 0x80000001#32 0#32 = both 2#32 := by decide
theorem test_srli : out2 (.srli 1 2 4) 0xF0000000#32 0#32 = both 0x0F000000#32 ∧
    out2 (.srli 1 2 0) 1#32 0#32 = both 1#32 := by decide
theorem test_srai : out2 (.srai 1 2 4) 0xF0000000#32 0#32 = both 0xFF000000#32 ∧
    out2 (.srai 1 2 4) 0x70000000#32 0#32 = both 0x07000000#32 := by decide
theorem test_lui : out2 (.lui 1 0xFFFFF000#32) 9#32 9#32 = both 0xFFFFF000#32 := by decide
theorem test_auipc : out2 (.auipc 1 0x1000#32) 9#32 9#32 = both 0x1100#32 ∧
    out2 (.auipc 1 0xFFFFF000#32) 9#32 9#32 = both 0xFFFFF100#32 := by decide

/-- What EX resolves for a branch, under both settings of SIGNED_CMP. -/
def taken2 (i : Instr) (a b : Word) : Option (Bool × Word) × Option (Bool × Word) :=
  ((got (exec i (exState .signOfDifference a b))).bind (·.wires.exBranch),
    (got (exec i (exState .trueSigned a b))).bind (·.wires.exBranch))

/-- Taken to 0x100 + 8, or not taken to 0x100 + 4. -/
def br (taken : Bool) : Option (Bool × Word) :=
  some (taken, if taken then 0x108#32 else 0x104#32)

theorem test_beq : taken2 (.beq 1 2 8) 5#32 5#32 = (br true, br true) ∧
    taken2 (.beq 1 2 8) 0x80000000#32 1#32 = (br false, br false) := by decide
theorem test_bne : taken2 (.bne 1 2 8) 5#32 5#32 = (br false, br false) ∧
    taken2 (.bne 1 2 8) 1#32 2#32 = (br true, br true) := by decide
theorem test_blt : taken2 (.blt 1 2 8) 0xFFFFFFFF#32 0#32 = (br true, br true) ∧
    taken2 (.blt 1 2 8) 0x80000000#32 1#32 = (br false, br true) := by decide
theorem test_bge : taken2 (.bge 1 2 8) 5#32 5#32 = (br true, br true) ∧
    taken2 (.bge 1 2 8) 0x80000000#32 1#32 = (br true, br false) := by decide
theorem test_bltu : taken2 (.bltu 1 2 8) 1#32 2#32 = (br true, br true) ∧
    taken2 (.bltu 1 2 8) 5#32 5#32 = (br false, br false) := by decide
theorem test_bgeu : taken2 (.bgeu 1 2 8) 5#32 5#32 = (br true, br true) ∧
    taken2 (.bgeu 1 2 8) 1#32 2#32 = (br false, br false) := by decide

/-- A state whose ID latch is at pc 4, with x4 = 12. -/
def idState : State :=
  { State.reset.writeReg 4 12#32 with
    pipe.curId := { Latch.empty with pc := 4#32, valid := true }
    wires := { Wires.idle with phase := .id, idFresh := true } }

-- V16: JAL x1, +12 at 0x04; V17: JALR x1, 1(x4) with x4 = 12 goes to 12.
theorem test_jal : (got (exec (.jal 1 12#32) idState)).bind (·.wires.idJump) = some 16#32 ∧
    out2 (.jal 1 12#32) 0#32 0#32 = both 0x104#32 := by decide +kernel
theorem test_jalr : (got (exec (.jalr 1 4 1#32) idState)).bind (·.wires.idJump) = some 12#32 ∧
    out2 (.jalr 1 4 1#32) 12#32 0#32 = both 0x104#32 := by decide +kernel

/-- A state whose MEM latch holds an address and a store value, with bytes in memory. -/
def memState (ea v : Word) (bytes : List (Nat × Byte)) : State :=
  { State.reset with
    mem := bytes.foldl (fun m b => memPutByte m b.1 b.2) []
    pipe.curMem := { Latch.empty with out := ea, b := v, valid := true }
    wires.phase := .mem }

/-- What a load leaves in MEM_WB, and the fault MEM raised. -/
def loaded (i : Instr) (ea : Word) (bytes : List (Nat × Byte)) : Option (Word × Option Fault) :=
  (got (exec i (memState ea 0#32 bytes))).map (fun t => (t.pipe.memWb.out, t.wires.memStop))

/-- V51's bytes at 0x100, and V51b's at 0x200: 78 56 34 12. -/
def bytes51 : List (Nat × Byte) :=
  [(0x100, 0xFF#8), (0x104, 0xFF#8), (0x105, 0xFF#8), (0x10B, 0x80#8),
    (0x200, 0x78#8), (0x201, 0x56#8), (0x202, 0x34#8), (0x203, 0x12#8)]

theorem test_lb : loaded (.lb 5 4 0) 0x100#32 bytes51 = some (0xFFFFFFFF#32, none) := by decide
theorem test_lbu : loaded (.lbu 6 4 0) 0x100#32 bytes51 = some (0xFF#32, none) ∧
    loaded (.lbu 6 4 0) 0xFFFF#32 bytes51 = some (0#32, none) := by decide
theorem test_lh : loaded (.lh 7 4 4) 0x104#32 bytes51 = some (0xFFFFFFFF#32, none) ∧
    loaded (.lh 7 4 4) 0x203#32 bytes51 = some (0x12#32, none) := by decide
theorem test_lhu : loaded (.lhu 8 4 4) 0x104#32 bytes51 = some (0xFFFF#32, none) ∧
    loaded (.lhu 8 4 4) 0x105#32 bytes51 = some (0xFF#32, none) := by decide
theorem test_lw : loaded (.lw 9 4 8) 0x108#32 bytes51 = some (0x80000000#32, none) ∧
    loaded (.lw 9 4 8) 0x201#32 bytes51 = some (0x00123456#32, none) := by decide
theorem test_lw_out_of_bounds :
    loaded (.lw 3 2 0) 0xFFFD#32 [] = some (0#32, some (.outOfBounds 0xFFFD#32)) ∧
    loaded (.lw 3 2 0) 0x10000#32 [] = some (0#32, some (.outOfBounds 0x10000#32)) := by decide

/-- The memory a store leaves, and the fault MEM raised. -/
def stored (i : Instr) (ea v : Word) : Option (List Host.Cell × Option Fault) :=
  (got (exec i (memState ea v []))).map (fun t => (t.mem, t.wires.memStop))

theorem test_sb : stored (.sb 4 2 0) 0xFFFF#32 0x1234FFEE#32 = some ([(0xFFFF, 0xEE#8)], none) := by
  decide
theorem test_sh : stored (.sh 4 2 4) 0x104#32 0xFFFF1234#32 =
      some ([(0x104, 0x34#8), (0x105, 0x12#8)], none) ∧
    stored (.sh 4 2 4) 0xFFFF#32 0x1234#32 = some ([], some (.outOfBounds 0xFFFF#32)) := by decide
-- V51: SW of 0x80000000 leaves 00 00 00 80, and V51b: 78 56 34 12.
theorem test_sw : stored (.sw 4 1 8) 0x108#32 0x80000000#32 = some ([(0x10B, 0x80#8)], none) ∧
    stored (.sw 4 1 8) 0x100#32 0x12345678#32 =
      some ([(0x100, 0x78#8), (0x101, 0x56#8), (0x102, 0x34#8), (0x103, 0x12#8)], none) := by decide
-- R190: the effective address wraps (V51c), and EX asks for the memory stall.
theorem test_effective_address :
    (got (exec (.lw 3 2 1#32) (exState .trueSigned 0xFFFFFFFF#32 0#32))).map
      (fun t => (t.pipe.exMem.out, t.wires.memReq)) = some (0#32, true) := by decide
-- R211, R212: HALT and ILLEGAL in EX.
theorem test_halt_ex :
    (got (exec .halt (exState .trueSigned 0#32 0#32))).map
      (fun t => (t.wires.exHalt, t.pipe.exMem.fault)) = some (true, none) := by decide
theorem test_illegal_ex :
    (got (exec (.illegal 0#32) (exState .trueSigned 0#32 0#32))).map
      (fun t => (t.wires.exHalt, t.pipe.exMem.inst.kind, t.pipe.exMem.fault)) =
      some (true, .HALT, some (.illegalInstruction 0x100#32)) := by decide

/-! ## One step after reset with an instruction placed (withFetchWord) -/

/-- One step of the machine with a word placed: the kind and result EX hands on, and whether the
run is halting. -/
def placed (w : Nat) : Option (Kind × Word × Bool) :=
  (got (step (State.reset.withFetchWord 32 w))).map
    (fun t => (t.pipe.exMem.inst.kind, t.pipe.exMem.out, t.run.halting))

theorem test_step_placed :
    placed 0x00100513 = some (.ADDI, 1#32, false) ∧ placed 0x800000B7 = some (.LUI, 0x80000000#32, false) ∧
    placed 0x00C000EF = some (.JAL, 4#32, false) ∧ placed 0x00008463 = some (.BEQ, 1#32, false) ∧
    placed 0x00B24583 = some (.LBU, 11#32, false) ∧ placed 0x0FF00513 = some (.HALT, 0#32, true) ∧
    placed 0 = some (.HALT, 0#32, true) := by decide +kernel

/-! ## Units: clock, predictor, forwarding, window, loader, output -/

-- V34: the clock's tick.
theorem test_tick :
    let c : Clock := ⟨⟨0, 0, 2, 0, 0⟩, ⟨0, 3, 0, 0, 0⟩, 2⟩
    [c.tick, c.tick.tick, c.tick.tick.tick].map (fun d => (d.stall.ex, d.defer.id, d.memBusy)) =
      [(1, 3, 1), (0, 3, 0), (0, 2, 0)] := by decide

/-- One branch predicted and trained: hit or not, and the predictor afterwards. -/
def train (c : Config) (pc : Word) (p : Predictor) (taken : Bool) : Option (Bool × Predictor) :=
  match predict c pc p with
  | none => none
  | some (ans, q) => (update c taken q).map (fun r => (ans == taken, r))

/-- The hits of a sequence of outcomes at pc 0x1C, and the predictor afterwards. -/
def trainAll (c : Config) : Predictor → List Bool → List Bool × Predictor
  | p, [] => ([], p)
  | p, t :: rest =>
    match train c 0x1C#32 p t with
    | none => ([], p)
    | some (hit, q) => (hit :: (trainAll c q rest).1, (trainAll c q rest).2)

-- V30: one level, T T T T N N N N.
theorem test_one_level :
    (trainAll { Config.default with predictor := .oneLevel } State.reset.pred
      [true, true, true, true, false, false, false, false]).1 =
      [false, false, true, true, false, false, true, true] := by decide +kernel
-- V31: two levels, T N T N T N T N.
theorem test_two_level :
    let r := trainAll Config.default State.reset.pred
      [true, false, true, false, true, false, true, false]
    r.1 = [false, true, false, true, false, true, true, true] ∧
    r.2.bht = [(28, 1#2), (30, 3#2)] ∧ r.2.history 7 = 2 := by decide +kernel
-- V32, V33.
theorem test_constant_mode_and_aliasing :
    train { Config.default with predictor := .alwaysTaken } 0x1C#32 State.reset.pred false =
      some (false, { State.reset.pred with pAddr := 7, pPred := true }) ∧
    addrIdx Config.default 0x41C#32 = 7 ∧ addrIdx Config.default 0xFFFFFFFC#32 = 255 := by
  decide +kernel
-- V35: pending, visible, empty again; the tie.
theorem test_forwarding :
    let t := FwTable.cleared.publishEx 5 0xAA#32
    let b : FwTable := ⟨⟨7, 1#32⟩, ⟨0, 0#32⟩, ⟨7, 2#32⟩, ⟨0, 0#32⟩⟩
    t.lookup .exFirst 5 = none ∧ (t.advance false false).lookup .exFirst 5 = some 0xAA#32 ∧
    ((t.advance false false).advance false false).lookup .exFirst 5 = none ∧
    b.lookup .exFirst 7 = some 1#32 ∧ b.lookup .memFirst 7 = some 2#32 := by decide
-- V1: the loader, SET_SIZE and SET_ADDRESS; R400's refusals.
theorem test_loader :
    loadImage Config.default "@0 13 05 10 00 13 05 F0 0F".toList =
      .ok ([(0, 0x13#8), (1, 0x05#8), (2, 0x10#8), (4, 0x13#8), (5, 0x05#8), (6, 0xF0#8),
        (7, 0x0F#8)], 0#32) ∧
    loadImage { Config.default with atMarker := .setAddress } "@10\nfF".toList =
      .ok ([(16, 0xFF#8)], 17#32) := by decide +kernel
theorem test_loader_refuses :
    loadImage Config.default "1g".toList = .error .notHex ∧
    loadImage Config.default "100".toList = .error (.byteTooLarge 256) ∧
    loadImage Config.default "@10001".toList = .error (.markerBeyondCapacity 65537) ∧
    loadImage { Config.default with memCapacity := 4 } "1 2 3 4 5".toList =
      .error (.byteBeyondCapacity 4) := by decide +kernel
-- R403: x10 = 0xFFFA prints 250 (P3).
theorem test_output :
    ({ State.reset.writeReg 10 0xFFFA#32 with run.done := true }).hostOutput = some "250" := by
  decide +kernel
-- R94, R95: operand syntax and a pseudo-instruction.
theorem test_assembler_text :
    instrText (.lw 3 1 0xFFFFFFFC#32) = "lw x3, -4(x1)" ∧
    (Pseudo.li 5 0x12345FFF#32).expand = [.lui 5 0x12346000#32, .addi 5 5 0xFFFFFFFF#32] := by
  decide +kernel

/-! ## Witnesses: for every obligation with hypotheses, a concrete input that meets them -/

/-- The vectors' HALT_WORD. -/
def hw : Word := 0x0FF00513#32

/-- One instruction of every kind, at the ends of its operands' ranges, from three lists. -/
def samplesA (r : RegIdx) (m : Word) : List Instr :=
  [.halt, .lui r 0xFFFFF000#32, .auipc r 0x80000000#32, .jal r 0xFFF00000#32, .jalr r r m,
    .beq r r 0xFFE#32, .bne r r 0xFFFFF000#32, .blt r r 0#32, .bge r r 0xFFE#32,
    .bltu r r 0xFFE#32, .bgeu r r 0xFFE#32, .lb r r 0xFFFFF800#32, .lh r r m, .lw r r m]
def samplesB (r : RegIdx) (m : Word) : List Instr :=
  [.lbu r r m, .lhu r r m, .sb r r 0xFFFFF800#32, .sh r r m, .sw r r m, .addi r r 0xFFFFF800#32,
    .slti r r m, .sltiu r r m, .xori r r m, .ori r r m, .andi r r m, .slli r r r, .srli r r r,
    .srai r r r]
def samplesC (r : RegIdx) : List Instr :=
  [.add r r r, .sub r r r, .sll r r r, .slt r r r, .sltu r r r, .xor r r r, .srl r r r, .sra r r r,
    .or r r r, .and r r r, .illegal 0xFFFFFFFF#32]
def samples : List Instr := samplesA 31 0x7FF#32 ++ samplesB 31 0x7FF#32 ++ samplesC 31

-- DecodeEncodeRoundTrip.
theorem witness_encodable : ∀ i ∈ samples, i.encodable hw = true := by decide
-- The `w ≠ h` of every statement of an encoding, at the same operands.
theorem witness_word_is_not_halt : ∀ i ∈ samples, i = .halt ∨ encode hw i ≠ hw := by decide
-- ZeroRegisterIsHardwired.
theorem witness_registers : (31 : RegIdx) ≠ 0 ∧ (1 : RegIdx) ≠ 31 := by decide
-- AluClassPassage, the clause of rd = 0 and its latch too.
theorem witness_alu_class :
    (Instr.addi 0 1 5#32).kind.isAlu = true ∧ ((Instr.addi 0 1 5#32).record 0x00508013#32).rd = 0 ∧
    (Instr.and 31 1 2).kind.isAlu = true ∧
    ({ Latch.empty with inst := (Instr.addi 0 1 5#32).record 0x00508013#32 }).inst =
      (Instr.addi 0 1 5#32).record 0x00508013#32 := by decide
-- JalInEveryStage, its management clause.
theorem witness_jal_signal : ∃ t : State, t.wires.idJump = some (State.reset.pipe.curId.pc + 12#32) :=
  ⟨{ State.reset with wires.idJump := some 12#32 }, by decide⟩
-- ExactBranchConditions, SignedBranchConditions, BranchPassage: pending, and not pending.
theorem witness_branch : (exState .trueSigned 1#32 2#32).pred.pValid = true ∧
    State.reset.pred.pValid = false ∧ (Instr.bgeu 1 2 8).kind.isBranch = true := by decide
-- LoadsInEveryStage, StoresInEveryStage, AccessBeyondCapacity: the last address within capacity and the
-- first beyond, for each width; the hypotheses on either side exclude each other.
theorem witness_access : ∀ n ∈ [1, 2, 4],
    let s := memState (BitVec.ofNat 32 (0x10000 - n)) 0#32 bytes51
    let t := memState (BitVec.ofNat 32 (0x10001 - n)) 0#32 bytes51
    s.pipe.curMem.out.toNat + n ≤ s.cfg.memCapacity ∧ Memory.wf s.mem = true ∧
    t.cfg.memCapacity < t.pipe.curMem.out.toNat + n := by decide
-- LoadReturnsWhatStorePut: each store at the last address that fits; the state after it meets the
-- load's hypotheses.
theorem witness_store_then_load :
    ∀ p ∈ [(Instr.sb 1 2 0, 1), (.sh 1 2 0, 2), (.sw 1 2 0, 4)],
      let s := memState (BitVec.ofNat 32 (0x10000 - p.2)) 0x12345678#32 bytes51
      Memory.wf s.mem = true ∧ s.pipe.curMem.out.toNat + p.2 ≤ s.cfg.memCapacity ∧
      (got (exec p.1 (s.inPhase .mem))).map (fun t => (t.cfg, t.pipe.curMem.out)) =
        some (s.cfg, s.pipe.curMem.out) := by decide
-- HaltInEveryStage.
theorem witness_halt_signals :
    ({ State.reset with wires.wbHalt := some none }).wires.wbHalt = some none ∧
    (let s := { State.reset with wires.exHalt := true }
     s.wires.wbHalt = none ∧ s.wires.exHalt = true ∧ s.wires.memReq = false) := by decide
-- IllegalInEveryStage.
theorem witness_illegal_word :
    (∀ r ∈ opcodeTable, 0#32 &&& r.mask ≠ r.pattern) ∧ 0#32 ≠ hw := by decide
-- BubbleDoesNothing: every stage runs after reset on empty latches, and a tagged latch.
theorem witness_bubble :
    (∀ p ∈ Stage.all, State.reset.runs p = true) ∧ State.reset.pipe.curId.valid = false ∧
    State.reset.pipe.curEx.inst = Decoded.nop ∧ State.reset.pipe.curEx.fault = none ∧
    State.reset.pipe.curMem.inst = Decoded.nop ∧ State.reset.pipe.curWb.inst = Decoded.nop ∧
    (let l : Latch := { Latch.empty with valid := true, fault := some (.misalignedFetch 6#32) }
     let s := { State.reset with pipe.curId := l, pipe.curEx := l }
     s.pipe.curId.fault ≠ none ∧ s.runs .ex = true ∧
      s.pipe.curEx.fault = some (.misalignedFetch 6#32)) := by decide
-- PredictorProtocol: both values of the marker.
theorem witness_predictor :
    State.reset.pred.pValid = false ∧
    (let p := (exState .trueSigned 0#32 0#32).pred
     p.pValid = true ∧ tableWf 0#2 p.bht = true ∧ tableWf 0 p.pht = true) := by decide
-- PublishedValueIsVisibleNextCycle: a register other than 0, the other slot holding another register.
theorem witness_forwarding : (5 : RegIdx) ≠ 0 ∧
    ((FwTable.cleared.publishEx 5 1#32).advance false false).visMem.reg ≠ 5 ∧
    ((FwTable.cleared.publishMem 5 1#32).advance false false).visEx.reg ≠ 5 ∧
    (let t := (FwTable.cleared.publishEx 5 1#32).advance false false
     t.pendEx.reg = 0 ∧ t.pendMem.reg = 0 ∧ t.visEx.reg = 5) ∧
    State.reset.wires.memStop = none ∧ State.reset.wires.exStop = none := by decide
-- R274, R311: busy memory keeps the slots; R273 with EX stalled and idle memory clears pending only.
theorem test_forward_step :
    let t : FwTable := ⟨⟨7, 1#32⟩, ⟨5, 2#32⟩, ⟨6, 3#32⟩, ⟨0, 0#32⟩⟩
    (forwardStep { State.reset with fw := t, clock.memBusy := 1 }).fw = t ∧
    (forwardStep { State.reset with fw := t, clock.stall.ex := 1 }).fw =
      ⟨⟨7, 1#32⟩, ⟨0, 0#32⟩, ⟨0, 0#32⟩, ⟨0, 0#32⟩⟩ := by decide
/-- x5 = 9 in the register file, and a 7 for x5 in the visible EX slot. -/
def operandState (p : HazardPolicy) : State :=
  { State.reset.writeReg 5 9#32 with
    cfg.hazardPolicy := p
    fw := ⟨⟨5, 7#32⟩, ⟨0, 0#32⟩, ⟨0, 0#32⟩, ⟨0, 0#32⟩⟩ }

-- R302, R276, and PublishedValueIsVisibleNextCycle's operand clauses: found, not found, and STALL.
theorem test_operand :
    (operandState .forward).fw.lookup .exFirst 5 = some 7#32 ∧
    (operandState .forward).fw.lookup .exFirst 6 = none ∧
    (operandState .forward).operand 5 = 7#32 ∧ (operandState .forward).operand 6 = 0#32 ∧
    (operandState .stall).operand 5 = 9#32 := by decide +kernel
-- HazardMatching: a store and a branch as producers, a LUI as consumer.
theorem witness_hazard :
    (Instr.sw 1 2 0).kind.isStore = true ∧ (Instr.beq 1 2 0).kind.isBranch = true ∧
    (Instr.lui 1 0).kind ∈ [Kind.LUI, .AUIPC, .JAL, .HALT, .ILLEGAL] ∧
    ({ Latch.empty with inst := (Instr.sw 1 2 0).record 0#32 }).inst =
      (Instr.sw 1 2 0).record 0#32 ∧
    hazardMatch ((Instr.add 3 1 2).record 0#32)
      { Latch.empty with inst := (Instr.addi 2 0 0).record 0#32 } = true := by decide
-- FetchBodyEffect: halting, misaligned, a word, beyond capacity (the first such pc).
theorem witness_fetch :
    ({ State.reset with run.halting := true }).runs .ifetch = false ∧
    (let s := { State.reset with pc := 2#32 }
     s.runs .ifetch = true ∧ s.pc.toNat % 4 ≠ 0) ∧
    (let s := { State.reset with pc := 0xFFFC#32 }
     s.runs .ifetch = true ∧ s.pc.toNat % 4 = 0 ∧ (fetchWord s).2 = .ok 0#32) ∧
    (let s := { State.reset with pc := 0x10000#32 }
     s.runs .ifetch = true ∧ s.pc.toNat % 4 = 0 ∧
      (fetchWord s).2 = .error (.outOfBounds 0x10000#32)) := by decide

/-- A held block of the default four words from pc 8, the last absent, with the byte `a` stored to
and the cursor given; the byte 19 is stored to in this cycle. -/
def winState (cursor a : Nat) : State :=
  { State.reset with
    win := ⟨true, 8#32, [some 5#32, some 6#32, some 7#32, none], cursor, [a]⟩
    wires.stored := [19] }

-- WindowFetchAndStaleness: not valid, used up, held at the first and the last word: stale at the
-- last byte, as loaded with the byte after it stored to, absent.
theorem witness_window :
    State.reset.cfg.windowWords ≠ 0 ∧ State.reset.win.valid = false ∧
    (winState 4 0).win.cursor = (winState 4 0).cfg.windowWords ∧
    (∀ k ∈ [0, 3], (winState k 0).win.valid = true ∧
      (winState k 0).win.cursor < (winState k 0).cfg.windowWords) ∧
    (winState 0 11).win.words[(winState 0 11).win.cursor]? = some (some 5#32) ∧
    (8 ≤ 11 ∧ 11 < 8 + 4 ∧ 11 ∈ (winState 0 11).win.dirty) ∧
    (∀ x ∈ (winState 0 12).win.dirty, ¬(8 ≤ x ∧ x < 8 + 4)) ∧
    (winState 3 0).win.words[(winState 3 0).win.cursor]? = some none := by decide
-- R71: a block loaded at the last word within capacity, and stale, fresh and absent words of a held one.
theorem test_fetch_word :
    (fetchWord { State.reset with pc := 0xFFFC#32 }).1.words = [some 0#32, none, none, none] ∧
    (fetchWord (winState 0 11)).2 = .error (.staleFetch 8#32) ∧
    (fetchWord (winState 0 12)).2 = .ok 5#32 ∧ (fetchWord (winState 0 12)).1.cursor = 1 ∧
    (fetchWord (winState 3 0)).2 = .error (.outOfBounds 20#32) ∧
    (joinStored (winState 0 11)).win.dirty = [11, 19] := by decide

/-- A state in which EX has resolved its branch as `taken`, against a pending prediction `pred`. -/
def resolved (taken pred : Bool) : State :=
  { State.reset with
    pred.pValid := true
    pred.pPred := pred
    wires.exBranch := some (taken, 0x108#32) }

-- BranchResolution: none resolved, predicted wrong and right, and the management step that ends there.
theorem witness_resolution :
    (∀ taken pred : Bool, (resolved taken pred).wires.exBranch = some (taken, 0x108#32) ∧
      (update State.reset.cfg taken (resolved taken pred).pred).isSome = true ∧
      (resolved taken pred).pred.pPred = pred) ∧
    (resolve (branchSignal (resolved true false))).2 = true ∧
    State.reset.wires.exBranch = none := by decide
-- JumpRedirect: no branch resolved, and a flush.
theorem witness_jump_redirect :
    (let s := { State.reset with wires.idJump := some 8#32 }
     resolve (branchSignal s) = (s, false) ∧ s.wires.idJump = some 8#32) ∧
    (let r := resolve (branchSignal { resolved true false with wires.idJump := some 8#32 })
     r.2 = true ∧ r.1.wires.idJump = some 8#32) := by decide
-- BranchPassage, its management clauses: a branch signal and none; no jump, no flush, and a branch in
-- flight with and without a prediction pending.
theorem witness_branch_signal :
    (let s := { State.reset with wires.idBranch := some 8#32 }
     s.wires.idBranch = some 8#32 ∧ (resolve (branchSignal s)).2 = false ∧
      (let t := (resolve (branchSignal s)).1
       t.wires.idJump = none ∧ t.ctl.branchInFlight = true ∧ t.pred.pValid = false)) ∧
    State.reset.wires.idBranch = none ∧ State.reset.ctl.branchInFlight = false ∧
    (resolved true false).pred.pValid = true ∧ (resolved true false).wires.idJump = none := by decide
-- R327, R326: a second branch is noted as delayed; a taken prediction redirects to the target.
theorem test_branch_signal :
    let s : State := { State.reset with
      cfg.predictor := .alwaysTaken
      ctl.branchInFlight := true
      wires.idBranch := some 0x20#32 }
    (branchSignal s).ctl = ⟨true, true, 0x20#32⟩ ∧
    (redirectFetch (branchSignal s)).pc = 0x20#32 ∧
    (redirectFetch (branchSignal s)).pred.pValid = true := by decide
-- ClockRequests, its memory-stall clauses, and R323's numbers.
theorem witness_memory_request :
    State.reset.wires.memReq = false ∧ State.reset.wires.wbHalt = none ∧
    (let s := { State.reset with wires.memReq := true }
     s.wires.memReq = true ∧ s.wires.wbHalt = none ∧
      (memorySignal s).clock = ⟨⟨2, 2, 2, 2, 0⟩, ⟨0, 0, 0, 0, 0⟩, 2⟩) := by decide
-- StageOrderDoesNotMatter.
theorem witness_order : ([.wb, .id, .mem, .ifetch, .ex] : List Stage).Perm Stage.all := by decide

/-- The latch a word leaves in flight, decoded, with the operands and result given. -/
def inFlight (w a b out : Word) : Latch :=
  { inst := (decodeWord hw w).record w, word := w, out := out, pc := 0x40#32, a := a, b := b,
    valid := true, fault := none }

/-- A running machine with a word waiting for ID, EX, MEM and WB in turn, and a prediction pending
for a branch that waits for EX. -/
def running (idw exw memw wbw : Word) : State :=
  let branch := (decodeWord hw exw).kind.isBranch
  { State.reset with
    mem := [(1, 5#8), (0x100, 7#8)]
    pipe.ifId := { Latch.empty with word := idw, pc := 0x44#32, valid := true }
    pipe.idEx := inFlight exw 0xFFFC#32 3#32 0#32
    pipe.exMem := inFlight memw 0#32 9#32 0x100#32
    pipe.memWb := inFlight wbw 0#32 0#32 77#32
    pred.pValid := branch
    ctl.branchInFlight := branch }

/-- The state after one step. -/
def after (s : State) : State := (got (step s)).getD s

/-- A running machine steps to `after`. -/
theorem step_after (s : State) (h : s.run.done = false) : step s = .next (after s) := by
  obtain ⟨t, ht⟩ : ∃ t, cycle s = .next t := by
    obtain ⟨w, hw⟩ := writeBackBody_answers (propagate (beginCycle s))
    obtain ⟨m, hm⟩ := memoryBody_answers (propagate (beginCycle s))
    obtain ⟨e, he⟩ := executeBody_answers (propagate (beginCycle s))
    obtain ⟨d, hd⟩ := decodeBody_answers { propagate (beginCycle s) with regs := w.regs }
    refine ⟨finishCycle (commit ⟨fetchBody (propagate (beginCycle s)), d, e, m, w⟩
      (propagate (beginCycle s))), ?_⟩
    simp only [cycle, stageBodies, hw, hm, he, hd, andThen_of_next]
  have hs : step s = .next t := (step_running h).trans ht
  simp only [after, hs, got, Option.getD_some]

/-- BEQ waits for EX, SW for MEM, ADDI x1 for WB. -/
def busyState : State := running 0x00108133#32 0x00000463#32 0x0020A023#32 0x00100093#32
/-- LW beyond capacity waits for MEM, ADDI x1 for WB. -/
def faultState : State :=
  { running 0x13#32 0x13#32 0x00012183#32 0x00100093#32 with
    pipe.exMem := inFlight 0x00012183#32 0#32 0#32 0xFFFD#32 }

theorem busy_inv : Inv busyState := by
  constructor <;> decide +kernel
theorem fault_inv : Inv faultState := by
  constructor <;> decide +kernel

-- StepRunsTheInstructionsInFlight: ID, EX, MEM and WB each with an instruction.
theorem witness_in_flight :
    let p := propagate (beginCycle busyState)
    busyState.run.done = false ∧ (∀ q ∈ Stage.all, p.runs q = true) ∧ p.pipe.curId.valid = true ∧
    p.pipe.curId.fault = none ∧ p.pipe.curEx.fault = none ∧
    p.pipe.curEx.inst.instr p.pipe.curEx.word = some (.beq 0 0 8#32) ∧
    p.pipe.curMem.inst.instr p.pipe.curMem.word = some (.sw 1 2 0#32) ∧
    p.pipe.curWb.inst.instr p.pipe.curWb.word = some (.addi 1 0 1#32) := by decide +kernel
-- StepRunsTheInstructionsInFlight: a state in which no stage runs.
theorem witness_stages_stopped :
    ∀ q ∈ Stage.all,
      ({ State.reset with clock.stall := ⟨1, 1, 1, 1, 1⟩ }).runs q = false := by decide
-- RunningMachineAlwaysSteps, CountersChangeWithinBounds, OnlyWriteBackChangesRegisters, OnlyStoresChangeMemory,
-- HitsAndMissesCountBranches and the invariants' statements: a state of the invariant that steps, a store in
-- MEM, a branch resolved.
theorem witness_step : Inv busyState ∧ busyState.run.done = false ∧
    step busyState = .next (after busyState) ∧
    busyState.pipe.exMem.inst.kind.isStore = true ∧
    (busyState.pipe.idEx.inst.kind.isBranch = true ∧ busyState.clock.stall.ex = 0 ∧
      busyState.run.halting = false ∧ (after busyState).run.done = false) :=
  ⟨busy_inv, rfl, step_after _ rfl, by decide +kernel, by decide +kernel⟩
-- OnlyStoresChangeMemory, no store: MEM stalled, and a load.
theorem witness_no_store : faultState.pipe.exMem.inst.kind.isStore = false ∧
    ({ busyState with clock.stall.mem := 1 }).clock.stall.mem ≠ 0 := by decide +kernel
-- FetchedBytesBecomeTheDecodedInstruction, at the last pc within capacity.
theorem witness_fetched :
    let s : State := { State.reset with pc := 0xFFFC#32, mem := [(0xFFFC, 0x13#8)] }
    let t := after s
    let u := after t
    s.cfg.wf = true ∧ s.run.done = false ∧ s.run.halting = false ∧ s.clock.stall.ifetch = 0 ∧
    s.win.valid = false ∧ s.pc.toNat % 4 = 0 ∧ s.pc.toNat + 4 ≤ s.cfg.memCapacity ∧
    decodeBytes s.cfg.haltWord ((List.range 4).map (fun k => s.readByte (s.pc.toNat + k))) =
      .ok (.addi 0 0 0#32, []) ∧
    t.pipe.ifId.valid = true ∧ t.run.done = false ∧ t.run.halting = false ∧
    t.clock.stall.id = 0 ∧ t.clock.defer.id = 0 ∧ u.pipe.idEx.valid = true ∧
    step s = .next t ∧ step t = .next u := by
  refine ⟨?_, ?_, ?_, ?_, ?_, ?_, ?_, ?_, ?_, ?_, ?_, ?_, ?_, ?_, step_after _ ?_, step_after _ ?_⟩ <;>
    decide +kernel
-- EndOfRunAndFuel: ended normally, ended faulted, ended within fuel, out of fuel.
theorem witness_end :
    (let s := { State.reset with run.done := true }
     s.run.done = true ∧ s.run.faulted = none ∧ runFuel 1 s = .ended s) ∧
    (let s := { State.reset with run := ⟨true, true, some (.outOfBounds 0#32)⟩ }
     s.run.done = true ∧ s.run.faulted = some (.outOfBounds 0#32)) ∧
    runFuel 0 State.reset = .outOfFuel State.reset := by decide +kernel
-- HaltingFreezesTheFrontEnd.
theorem witness_halting :
    let s := { busyState with run.halting := true }
    s.run.halting = true ∧ s.run.done = false ∧ step s = .next (after s) :=
  ⟨rfl, rfl, step_after _ rfl⟩
-- MemoryFaultIsPrecise: the first address at which a word does not fit.
theorem witness_memory_fault : Inv faultState ∧ faultState.run.done = false ∧
    faultState.clock.stall.mem = 0 ∧ faultState.pipe.exMem.inst.kind = .LW ∧
    faultState.cfg.memCapacity < faultState.pipe.exMem.out.toNat + 4 ∧
    ¬faultState.cfg.memCapacity < faultState.pipe.exMem.out.toNat + 3 :=
  ⟨fault_inv, by decide +kernel⟩

/-- A word waits for EX, with bubbles before and after it. -/
def alone (exw : Word) : State :=
  { State.reset with pipe.idEx := inFlight exw 0xFFFC#32 3#32 0#32 }

-- IllegalEndsTheRunAtWriteBack.
theorem witness_illegal_run :
    let s := alone 0#32
    ClockInv s ∧ s.run.done = false ∧ s.run.halting = false ∧ s.clock.stall.ex = 0 ∧
    s.pipe.idEx.fault = none ∧ s.pipe.idEx.inst.kind = .ILLEGAL ∧
    step s = .next (after s) ∧ step (after s) = .next (after (after s)) ∧
    step (after (after s)) = .next (after (after (after s))) ∧
    (after s).run.done = false ∧ (after (after s)).run.done = false := by
  refine ⟨by decide, rfl, rfl, rfl, rfl, by decide, step_after _ rfl, step_after _ ?_,
    step_after _ ?_, ?_, ?_⟩ <;> decide +kernel
-- AluResultIsWrittenTwoCyclesAfterExecute: ADDI x2, x1, -1.
theorem witness_alu_run :
    let s := alone 0xFFF08113#32
    ClockInv s ∧ s.run.done = false ∧ s.run.halting = false ∧ s.clock.stall.ex = 0 ∧
    s.pipe.idEx.fault = none ∧
    s.pipe.idEx.inst.instr s.pipe.idEx.word = some (.addi 2 1 0xFFFFFFFF#32) ∧
    (Instr.addi 2 1 0xFFFFFFFF#32).kind.isAlu = true ∧
    step s = .next (after s) ∧ step (after s) = .next (after (after s)) ∧
    step (after (after s)) = .next (after (after (after s))) ∧
    (after s).run.done = false ∧ (after (after s)).run.done = false := by
  refine ⟨by decide, rfl, rfl, rfl, rfl, by decide, rfl, step_after _ rfl, step_after _ ?_,
    step_after _ ?_, ?_, ?_⟩ <;> decide +kernel
-- StoreReachesMemoryThreeCyclesAfterExecute: SW x2, 0(x1) at the last address that fits, and
-- SW x2, 1(x1) at the first that does not.
theorem witness_store_run : ∀ w ∈ [0x0020A023#32, 0x0020A0A3#32],
    let s := alone w
    ClockInv s ∧ MemoryInv s ∧ s.run.done = false ∧ s.run.halting = false ∧
    s.clock.stall.ex = 0 ∧ s.pipe.idEx.fault = none ∧ s.pipe.idEx.inst.kind = .SW ∧
    step s = .next (after s) ∧ step (after s) = .next (after (after s)) ∧
    step (after (after s)) = .next (after (after (after s))) ∧
    step (after (after (after s))) = .next (after (after (after (after s)))) ∧
    (after s).run.done = false ∧ (after (after s)).run.done = false ∧
    (after (after (after s))).run.done = false ∧
    ((s.pipe.idEx.a + s.pipe.idEx.inst.imm).toNat + 4 ≤ s.cfg.memCapacity ∨
      s.cfg.memCapacity < (s.pipe.idEx.a + s.pipe.idEx.inst.imm).toNat + 4) := by
  simp only [List.forall_mem_cons, List.not_mem_nil, false_implies, implies_true, and_true]
  refine ⟨⟨by decide, by decide, rfl, rfl, rfl, rfl, by decide, step_after _ rfl, step_after _ ?_,
    step_after _ ?_, step_after _ ?_, ?_, ?_, ?_, ?_⟩, ⟨by decide, by decide, rfl, rfl, rfl, rfl,
    by decide, step_after _ rfl, step_after _ ?_, step_after _ ?_, step_after _ ?_, ?_, ?_, ?_, ?_⟩⟩
    <;> decide +kernel
theorem witness_store_edges :
    ((alone 0x0020A023#32).pipe.idEx.a + (alone 0x0020A023#32).pipe.idEx.inst.imm).toNat + 4 =
      (alone 0x0020A023#32).cfg.memCapacity ∧
    ((alone 0x0020A0A3#32).pipe.idEx.a + (alone 0x0020A0A3#32).pipe.idEx.inst.imm).toNat + 4 =
      (alone 0x0020A0A3#32).cfg.memCapacity + 1 := by decide
-- ConstructedMachineIsAtReset, ControllerInvariantIsUnreachable: V1's image, one step of its run.
theorem witness_constructed : Config.default.wf = true ∧
    ∃ s, construct Config.default "@0 13 05 10 00 13 05 F0 0F".toList = .ok s ∧
      s.run.done = false ∧ Reaches s (after s) := by
  refine ⟨by decide, State.init Config.default
    [(0, 0x13#8), (1, 0x05#8), (2, 0x10#8), (4, 0x13#8), (5, 0x05#8), (6, 0xF0#8), (7, 0x0F#8)] 0,
    by decide +kernel, rfl, .next (.here _) (step_after _ rfl)⟩
-- LoaderPlacesBytes: bytes that fill memory, bytes that do not fit, and each refused token.
theorem witness_loader :
    let c := { Config.default with memCapacity := 4 }
    let l : Loader := ⟨[(0, 9#8)], 2, none⟩
    Memory.wf l.mem = true ∧
    [['F', 'f'], ['0']].map hexValue = [255, 0].map some ∧ (∀ b ∈ [255, 0], b ≤ 0xFF) ∧
    l.fill + [255, 0].length ≤ c.memCapacity ∧ c.memCapacity < l.fill + [1, 2, 3].length ∧
    l.fill ≤ c.memCapacity ∧ hexValue ['g'] = none ∧ hexValue [] = none ∧
    hexValue ['1', '0', '0'] = some 256 ∧ ['1', '0', '0'].head? ≠ some '@' := by decide
-- LoaderPlacesBytes, a token's value and the image: digits of either case, no hexadecimal digit, a
-- marked and an unmarked text, and a malformed one.
theorem witness_loader_text :
    (∀ d ∈ [('9', 9), ('a', 10), ('F', 15)], d ∈ "0123456789abcdef".toList.zipIdx ∨
      d ∈ "0123456789ABCDEF".toList.zipIdx) ∧
    hexValue ['9', 'a', 'F'] = some 0x9AF ∧ 'g' ∉ "0123456789abcdefABCDEF".toList ∧
    loadTokens Config.default ⟨[], 0, none⟩ (splitTokens [] "@5 FF".toList) =
      .ok ⟨[(0, 0xFF#8)], 1, some 5⟩ ∧
    loadTokens Config.default ⟨[], 0, none⟩ (splitTokens [] "0 FF".toList) =
      .ok ⟨[(1, 0xFF#8)], 2, none⟩ ∧
    loadTokens Config.default ⟨[], 0, none⟩ (splitTokens [] "x".toList) = .error .notHex := by
  decide +kernel
-- ResultOutput.
theorem witness_output :
    ({ State.reset with run.done := true }).run.faulted = none ∧ State.reset.run.done = false ∧
    faultState.run.faulted = none ∧ (after faultState).run.faulted ≠ none := by decide +kernel

end Sys2Proof.Tests
end

section
/-! Proofs about the register file (10_state.md R21, R22). -/

namespace Sys2Proof.Machine

/-- The frame of a register write: only the register file can differ. -/
theorem writeReg_eq_with_regs (s : State) (r : RegIdx) (v : Word) :
    s.writeReg r v = { s with regs := (s.writeReg r v).regs } := by
  unfold State.writeReg
  split
  · rfl
  · rfl

/-- Settles O6: from the read and write rules of the register file and the write's frame. -/
theorem zeroRegisterIsHardwired : Obligations.ZeroRegisterIsHardwired := by
  intro s r q v
  exact ⟨readReg_zero s, writeReg_zero s v,
    fun hr => readReg_writeReg_self s hr v,
    fun hq => readReg_writeReg_other s hq v,
    writeReg_eq_with_regs s r v⟩

end Sys2Proof.Machine
end

section
/-! Proofs about the ALU class (40_alu_ops.md R123 to R144). -/

namespace Sys2Proof

/-! ## Decoding the word of an ALU-class instruction (R87, R90) -/

/-- A word of opcode 0x13 is decoded by the immediate rows alone (R90). -/
theorem decodeWord_opImm {h w : Word} (hw : w ≠ h) (ho : opcodeOf w = 0x13#7) :
    decodeWord h w = decodeAluImm w := by
  simp [decodeWord, hw, ho]

/-- A word of opcode 0x33 is decoded by the register rows alone (R90). -/
theorem decodeWord_opReg {h w : Word} (hw : w ≠ h) (ho : opcodeOf w = 0x33#7) :
    decodeWord h w = decodeAluReg w := by
  simp [decodeWord, hw, ho]

/-- The decoder gives back an ALU-class instruction from its encoding, unless that is HALT_WORD
(R86): by the opcode, the rows to search are known, and in them the function fields decide. -/
theorem decodeWord_encode_of_isAlu {h : Word} {i : Instr} (hk : i.kind.isAlu = true)
    (hwf : i.wf = true) (hw : encode h i ≠ h) : decodeWord h (encode h i) = i := by
  cases i
  case lui | auipc => simpa [decodeWord, encode, immUOf_encU _ _ _ hwf] using hw
  case addi | slti | sltiu | xori | ori | andi =>
    rw [decodeWord_opImm hw (opcodeOf_encI ..)]
    simp [encode, decodeAluImm, immIOf_encI _ _ _ _ _ hwf]
  case slli | srli | srai =>
    rw [decodeWord_opImm hw (opcodeOf_encR ..)]
    simp [encode, decodeAluImm]
  case add | sub | sll | slt | sltu | xor | srl | sra | or | and =>
    rw [decodeWord_opReg hw (opcodeOf_encR ..)]
    simp [encode, decodeAluReg]
  all_goals cases hk

end Sys2Proof

namespace Sys2Proof.Machine

/-! ## EX of an ALU-class instruction -/

/-- What the statements of this family say of one instruction `i`: its word `w` decodes to it, and
EX answers `out` in EX_MEM and publishes it, and nothing else. -/
theorem aluInstr_result {h w out : Word} {rd : RegIdx} {i : Instr} {s : State}
    (hk : i.kind.isAlu = true) (hwf : i.wf = true) (henc : encode h i = w)
    (hex : exec i (s.inPhase .ex) = .next (exResult rd out (s.inPhase .ex))) :
    (w ≠ h → decodeWord h w = i) ∧
    exec i (s.inPhase .ex) = .next { s.inPhase .ex with
      pipe.exMem := { s.pipe.curEx with out := out }
      fw := s.fw.publishEx rd out } := by
  subst henc
  exact ⟨decodeWord_encode_of_isAlu hk hwf, hex⟩

/-- Settles O7: each instruction's EX value is its ALU operation on the latch's operands (R120). -/
theorem registerArithmeticResults : Obligations.RegisterArithmeticResults := by
  intro h rd rs1 rs2 s A B
  simp only [List.forall_mem_cons]
  refine ⟨?add, ?sub, ?xor, ?or, ?and, List.forall_mem_nil _⟩
  all_goals exact aluInstr_result rfl rfl rfl rfl

/-! A shift by an immediate is the ALU's shift by the zero-extended field, whose low five bits are
the field (R120). -/

theorem alu_sll_zeroExtend (a : Word) (n : BitVec 5) :
    alu a (n.zeroExtend 32) .sll = a <<< n.toNat := by
  rw [alu, shiftAmount_zeroExtend]

theorem alu_srl_zeroExtend (a : Word) (n : BitVec 5) :
    alu a (n.zeroExtend 32) .sr false = a >>> n.toNat := by
  simp [alu, shiftAmount_zeroExtend]

theorem alu_sra_zeroExtend (a : Word) (n : BitVec 5) :
    alu a (n.zeroExtend 32) .sr true = a.sshiftRight n.toNat := by
  simp [alu, shiftAmount_zeroExtend]

/-- Settles O9: the words are the encodings of the instructions with the sign-extended immediate,
and a shift amount passes through the ALU's low five bits unchanged (R120). -/
theorem immediateArithmeticResults : Obligations.ImmediateArithmeticResults := by
  intro h rd rs1 j shamt s imm A wi ws
  have hwi : ∀ f, wi f = encI imm rs1 f rd 0x13#7 := fun f => encI_eq j rs1 f rd _
  have himm : imm12 imm = true := imm12_signExtend j
  simp only [List.forall_mem_cons]
  refine ⟨?addi, ?xori, ?ori, ?andi, ?slli, ?srli, ?srai, List.forall_mem_nil _⟩
  case addi | xori | ori | andi => exact aluInstr_result rfl himm (hwi _).symm rfl
  case slli => exact aluInstr_result rfl rfl rfl (by rw [← alu_sll_zeroExtend]; rfl)
  case srli => exact aluInstr_result rfl rfl rfl (by rw [← alu_srl_zeroExtend]; rfl)
  case srai => exact aluInstr_result rfl rfl rfl (by rw [← alu_sra_zeroExtend]; rfl)

/-! ## The passage through the stages (R123) -/

/-- The class ALU and the classes with a stage part of their own exclude each other (R82). -/
theorem isAlu_exclusive {k : Kind} (h : k.isAlu = true) :
    k.isJump = false ∧ k.isBranch = false ∧ k.isLoad = false ∧ k.isStore = false ∧ k ≠ .HALT := by
  revert h
  cases k <;> decide

/-- A latch without a destination causes no hazard (R341). -/
theorem hazardMatch_of_rd_eq_zero {l : Latch} (h : l.inst.rd = 0) (c : Decoded) :
    hazardMatch c l = false :=
  Bool.eq_false_iff.mpr fun hm => ((hazardMatch_iff c l).mp hm).1 h

/-- Settles O12: the stage parts of the class, each in its turn, then the clause of rd = 0. -/
theorem aluClassPassage : Obligations.AluClassPassage := by
  intro i s hk d
  obtain ⟨hjump, hbranch, hload, hstore, hhalt⟩ := isAlu_exclusive hk
  refine ⟨exec_id_plain hjump hbranch s, operand_zero s,
    exec_ex_result (.inl hk) s.pipe.curId.word s, exec_mem_pass hload hstore s,
    exec_wb (fun e => hhalt (congrArg Instr.kind e)) s.pipe.curId.word s, fun hrd => ?_⟩
  refine ⟨fun v => ?publish, fun v => ?write, fun c l hl => ?hazard⟩
  case publish => rw [hrd, publishEx_zero]
  case write => rw [hrd, writeReg_zero]
  case hazard => exact hazardMatch_of_rd_eq_zero (hl ▸ hrd) c

end Sys2Proof.Machine
end

section
/-! Proofs about the control transfers (41_control_transfer.md R163 to R171). -/

namespace Sys2Proof

/-! ## Decoding the word of a control transfer (R87, R88) -/

/-- A word of opcode 0x63 is decoded by the branch rows alone (R88). -/
theorem decodeWord_branch {h w : Word} (hw : w ≠ h) (ho : opcodeOf w = 0x63#7) :
    decodeWord h w = decodeBranch w := by
  simp [decodeWord, hw, ho]

/-- The decoder gives back a conditional branch from its encoding, unless that is HALT_WORD (R86):
among the rows of the branch opcode, funct3 decides. -/
theorem decodeWord_encode_of_isBranch {h : Word} {i : Instr} (hk : i.kind.isBranch = true)
    (hwf : i.wf = true) (hw : encode h i ≠ h) : decodeWord h (encode h i) = i := by
  cases i
  case beq | bne | blt | bge | bltu | bgeu =>
    rw [decodeWord_branch hw (opcodeOf_encB ..)]
    simp [encode, decodeBranch, immBOf_encB _ _ _ _ _ hwf]
  all_goals cases hk

/-- The decoder gives back a jump from its encoding, unless that is HALT_WORD (R86): the opcode
decides, for JALR with funct3. -/
theorem decodeWord_encode_of_isJump {h : Word} {i : Instr} (hk : i.kind.isJump = true)
    (hwf : i.wf = true) (hw : encode h i ≠ h) : decodeWord h (encode h i) = i := by
  cases i
  case jal => simpa [decodeWord, encode, immJOf_encJ _ _ _ hwf] using hw
  case jalr => simpa [decodeWord, encode, immIOf_encI _ _ _ _ _ hwf] using hw
  all_goals cases hk

end Sys2Proof

namespace Sys2Proof.Machine

/-! ## JAL through the stages (R163, R325) -/

/-- ID of an instruction that names no source register reads 0 for both operands (R22, R302). -/
theorem idDecode_of_no_source {i : Instr} {s : State}
    (h1 : (i.record s.pipe.curId.word).rs1 = 0) (h2 : (i.record s.pipe.curId.word).rs2 = 0) :
    idDecode i s = { s with
      pipe.idEx := { s.pipe.curId with
        inst := i.record s.pipe.curId.word, a := 0, b := 0, out := 0 } } := by
  simp only [idDecode, h1, h2, operand_zero]

/-- Settles O14: JAL's encoding, its part in each stage in turn, and the redirection its signal
causes. -/
theorem jalInEveryStage : Obligations.JalInEveryStage := by
  intro h rd j s imm w target link
  have henc : encode h (.jal rd imm) = w := (encJ_eq j rd 0x6F#7).symm
  have hwf : (Instr.jal rd imm).wf = true := immJ_even j
  refine ⟨henc ▸ decodeWord_encode_of_isJump rfl hwf, ?id, fun t ht => ?redirect, ?ex,
    exec_mem_pass rfl rfl s, ?wb, publishEx_zero s.fw link, writeReg_zero s s.pipe.curWb.out⟩
  case id =>
    exact congrArg (fun t => Host.Outcome.next (assertJump target t))
      (idDecode_of_no_source (i := .jal rd imm) (s := s.inPhase .id) rfl rfl)
  case redirect => rw [redirectFetch_jump ht, redirect, windowReset]
  case ex => rfl
  case wb => exact exec_wb (i := .jal rd imm) nofun s.pipe.curWb.word s

/-! ## The conditional branches in EX (R165, R307) -/

/-- What the statements of this family say of one branch `i`: its word `w` decodes to it, and with
a prediction pending EX answers the condition and the resolution, and nothing else. -/
theorem branchInstr_resolves {h w imm : Word} {taken : Bool} {i : Instr} {s : State}
    (hk : i.kind.isBranch = true) (hwf : i.wf = true) (henc : encode h i = w)
    (hex : exec i (s.inPhase .ex) = .next (exBranch imm taken (s.inPhase .ex))) :
    (w ≠ h → decodeWord h w = i) ∧
    (s.pred.pValid = true → exec i (s.inPhase .ex) = .next { s.inPhase .ex with
      pipe.exMem := { s.pipe.curEx with out := if taken then 1#32 else 0#32 }
      wires.exBranch := some (taken, s.pipe.curEx.pc + if taken then imm else 4#32) }) := by
  subst henc
  exact ⟨decodeWord_encode_of_isBranch hk hwf,
    fun hp => hex.trans (congrArg _ (exBranch_predicted (s := s.inPhase .ex) hp imm taken))⟩

theorem not_aluEq_eq (a b : Word) : (!aluEq a b) = decide (a ≠ b) := by
  rw [aluEq_eq, decide_not]

theorem not_ltu_eq (a b : Word) : (!ltu a b) = decide (b.toNat ≤ a.toNat) := by
  rw [ltu_eq, ← decide_not]
  simp only [Nat.not_lt]

/-- Settles O16: each word is the branch's encoding with the even offset, and each condition is
exact equality or exact unsigned order of the latch's operands (R122). -/
theorem exactBranchConditions : Obligations.ExactBranchConditions := by
  intro h rs1 rs2 j s imm A B
  have himm : immB imm = true := immB_even j
  simp only [List.forall_mem_cons]
  refine ⟨?beq, ?bne, ?bltu, ?bgeu, List.forall_mem_nil _⟩
  case beq => exact branchInstr_resolves rfl himm (encB_eq ..).symm (by rw [← aluEq_eq]; rfl)
  case bne => exact branchInstr_resolves rfl himm (encB_eq ..).symm (by rw [← not_aluEq_eq]; rfl)
  case bltu => exact branchInstr_resolves rfl himm (encB_eq ..).symm (by rw [← ltu_eq]; rfl)
  case bgeu => exact branchInstr_resolves rfl himm (encB_eq ..).symm (by rw [← not_ltu_eq]; rfl)

end Sys2Proof.Machine
end

section
/-! Proofs about the loads and stores (42_load_store.md R190 to R201). -/

namespace Sys2Proof

/-! ## Decoding the word of a load or store (R89) -/

/-- A word of opcode 0x03 is decoded by the load rows alone (R89). -/
theorem decodeWord_load {h w : Word} (hw : w ≠ h) (ho : opcodeOf w = 0x03#7) :
    decodeWord h w = decodeLoad w := by
  simp [decodeWord, hw, ho]

/-- A word of opcode 0x23 is decoded by the store rows alone (R89). -/
theorem decodeWord_store {h w : Word} (hw : w ≠ h) (ho : opcodeOf w = 0x23#7) :
    decodeWord h w = decodeStore w := by
  simp [decodeWord, hw, ho]

/-- The decoder gives back a load from its encoding, unless that is HALT_WORD (R86): among the rows
of the load opcode, funct3 decides. -/
theorem decodeWord_of_isLoad {h w : Word} {i : Instr} (hk : i.kind.isLoad = true)
    (hwf : i.wf = true) (henc : encode h i = w) (hw : w ≠ h) : decodeWord h w = i := by
  subst henc
  cases i
  case lb | lh | lw | lbu | lhu =>
    rw [decodeWord_load hw (opcodeOf_encI ..)]
    simp [encode, decodeLoad, immIOf_encI _ _ _ _ _ hwf]
  all_goals cases hk

/-- The decoder gives back a store from its encoding, unless that is HALT_WORD (R86): among the rows
of the store opcode, funct3 decides. -/
theorem decodeWord_of_isStore {h w : Word} {i : Instr} (hk : i.kind.isStore = true)
    (hwf : i.wf = true) (henc : encode h i = w) (hw : w ≠ h) : decodeWord h w = i := by
  subst henc
  cases i
  case sb | sh | sw =>
    rw [decodeWord_store hw (opcodeOf_encS ..)]
    simp [encode, decodeStore, immSOf_encS _ _ _ _ _ hwf]
  all_goals cases hk

/-- A store's record names no destination (R85). -/
theorem record_rd_of_isStore {i : Instr} (hk : i.kind.isStore = true) (w : Word) :
    (i.record w).rd = 0 := by
  cases i
  case sb | sh | sw => rfl
  all_goals cases hk

end Sys2Proof

namespace Sys2Proof.Machine

/-! ## Stores in MEM and WB (R192, R199 to R201) -/

/-- Reading a byte after a store of a width: the stored word's byte within the width, and the byte
that was there outside it (R61). -/
theorem memByte_storeBytes {m : List Host.Cell} (hm : Memory.wf m = true) (addr a : Nat) (v : Word)
    (n : Width) :
    memByte (memPutBytes m addr (storeBytes v n)) a =
      if addr ≤ a ∧ a < addr + n.bytes then v.extractLsb' (8 * (a - addr)) 8
      else memByte m a := by
  rw [memByte_putBytes hm, storeBytes_length]
  split
  case isTrue hin => exact storeBytes_getD v n (a - addr) (by omega)
  case isFalse => rfl

/-- An instruction whose MEM part is a store of width `n`: on canonical memory and within capacity,
MEM's whole answer and every byte of the memory it leaves. -/
theorem storeInstr_mem {i : Instr} {n : Width} {s : State}
    (hexec : exec i (s.inPhase .mem) = .next (memStore n (s.inPhase .mem)))
    (hm : Memory.wf s.mem = true) (hfit : s.pipe.curMem.out.toNat + n.bytes ≤ s.cfg.memCapacity) :
    ∃ m, exec i (s.inPhase .mem) = .next { s.inPhase .mem with
        mem := m
        pipe.memWb := s.pipe.curMem
        wires.stored := (List.range n.bytes).map (s.pipe.curMem.out.toNat + ·) } ∧
      Memory.wf m = true ∧
      ∀ a, memByte m a =
        if s.pipe.curMem.out.toNat ≤ a ∧ a < s.pipe.curMem.out.toNat + n.bytes then
          s.pipe.curMem.b.extractLsb' (8 * (a - s.pipe.curMem.out.toNat)) 8
        else s.readByte a := by
  refine ⟨memPutBytes s.mem s.pipe.curMem.out.toNat (storeBytes s.pipe.curMem.b n), ?answer,
    memory_wf_putBytes hm _ _, fun a => memByte_storeBytes hm _ a _ n⟩
  rw [hexec, memStore_within (s := s.inPhase .mem) hfit, accessAddrs_eq]
  rfl

/-- A store leaves WB without an effect: its rd is 0 (R85, R310). -/
theorem storeInstr_wb {i : Instr} (hk : i.kind.isStore = true) (s : State) :
    exec i (s.inPhase .wb) = .next (s.inPhase .wb) := by
  have hhalt : i ≠ .halt := by
    rintro rfl
    cases hk
  rw [exec_wb hhalt 0 s, record_rd_of_isStore hk, wbWrite_zero]

/-- Settles O20: each word is the store's encoding, and each stage's part is that of the class,
MEM's at the store's own width. -/
theorem storesInEveryStage : Obligations.StoresInEveryStage := by
  intro h rs1 rs2 j s imm ea B
  have himm : imm12 imm = true := imm12_signExtend j
  simp only [List.forall_mem_cons]
  refine ⟨?sb, ?sh, ?sw, List.forall_mem_nil _⟩
  all_goals
    refine ⟨decodeWord_of_isStore rfl himm (encS_eq ..).symm,
      record_rd_of_isStore rfl _, exec_id_plain rfl rfl s,
      exec_ex_access (.inr rfl) s.pipe.curId.word s, ?_, storeInstr_wb rfl s⟩
  case sb => exact storeInstr_mem (n := .byte) rfl
  case sh => exact storeInstr_mem (n := .half) rfl
  case sw => exact storeInstr_mem (n := .word) rfl

/-! ## Loads in MEM (R191, R194 to R198) -/

/-- An instruction whose MEM part is a load of width `n`: within capacity, MEM hands on and
publishes the widened value, and nothing else. -/
theorem loadInstr_mem {i : Instr} {rd : RegIdx} {n : Width} {se : Bool} {s : State} {out : Word}
    (hexec : exec i (s.inPhase .mem) = .next (memLoad rd n se (s.inPhase .mem)))
    (hout : widen (memValue s.mem s.pipe.curMem.out.toNat n) n se = out)
    (hfit : s.pipe.curMem.out.toNat + n.bytes ≤ s.cfg.memCapacity) :
    exec i (s.inPhase .mem) = .next { s.inPhase .mem with
      pipe.memWb := { s.pipe.curMem with out := out }
      fw := s.fw.publishMem rd out } := by
  subst hout
  exact hexec.trans (congrArg _ (memLoad_within (s := s.inPhase .mem) hfit rd se))

/-- Sign extension of a loaded byte (R62). -/
theorem widen_byte_signed (b : Byte) : widen (b.zeroExtend 32) .byte true = b.signExtend 32 := by
  simp [widen, ← BitVec.setWidth_eq_extractLsb']

/-- Sign extension of a loaded half word (R62). -/
theorem widen_half_signed (x : BitVec 16) :
    widen (x.zeroExtend 32) .half true = x.signExtend 32 := by
  simp [widen, ← BitVec.setWidth_eq_extractLsb']

/-- Settles O19: each word is the load's encoding, and each stage's part is that of the class, MEM's
at the load's own width and widening. -/
theorem loadsInEveryStage : Obligations.LoadsInEveryStage := by
  intro h rd rs1 j s imm ea byte
  have himm : imm12 imm = true := imm12_signExtend j
  simp only [List.forall_mem_cons]
  refine ⟨?lb, ?lh, ?lw, ?lbu, ?lhu, List.forall_mem_nil _⟩
  all_goals
    refine ⟨decodeWord_of_isLoad rfl himm (encI_eq ..).symm,
      exec_id_plain rfl rfl s, exec_ex_access (.inl rfl) s.pipe.curId.word s, ?_,
      exec_wb (by nofun) s.pipe.curId.word s⟩
  case lb => exact loadInstr_mem (n := .byte) rfl (widen_byte_signed _)
  case lh => exact loadInstr_mem (n := .half) rfl (widen_half_signed _)
  case lw => exact loadInstr_mem (n := .word) rfl rfl
  case lbu => exact loadInstr_mem (n := .byte) rfl rfl
  case lhu => exact loadInstr_mem (n := .half) rfl rfl

/-! ## The bound of an access (R193) -/

/-- What R193 says of an instruction `i` whose access is `n` bytes wide: beyond capacity MEM only
reports the fault, and within capacity it reports none. -/
abbrev FaultsExactlyBeyond (i : Instr) (n : Nat) (s : State) : Prop :=
  (s.cfg.memCapacity < s.pipe.curMem.out.toNat + n →
    exec i (s.inPhase .mem) =
      .next { s.inPhase .mem with wires.memStop := some (.outOfBounds s.pipe.curMem.out) }) ∧
  (s.pipe.curMem.out.toNat + n ≤ s.cfg.memCapacity →
    ∃ t, exec i (s.inPhase .mem) = .next t ∧ t.wires.memStop = s.wires.memStop)

theorem loadInstr_faultsExactlyBeyond {i : Instr} {rd : RegIdx} {n : Width} {se : Bool} {s : State}
    (hexec : exec i (s.inPhase .mem) = .next (memLoad rd n se (s.inPhase .mem))) :
    FaultsExactlyBeyond i n.bytes s :=
  ⟨fun hbeyond => hexec.trans (congrArg _ (memLoad_beyond (s := s.inPhase .mem) hbeyond rd se)),
    fun hfit => ⟨_, loadInstr_mem hexec rfl hfit, rfl⟩⟩

theorem storeInstr_faultsExactlyBeyond {i : Instr} {n : Width} {s : State}
    (hexec : exec i (s.inPhase .mem) = .next (memStore n (s.inPhase .mem))) :
    FaultsExactlyBeyond i n.bytes s :=
  ⟨fun hbeyond => hexec.trans (congrArg _ (memStore_beyond (s := s.inPhase .mem) hbeyond)),
    fun hfit =>
      ⟨_, hexec.trans (congrArg _ (memStore_within (s := s.inPhase .mem) hfit)), rfl⟩⟩

/-- Settles O21: each load and store at its own width. -/
theorem accessBeyondCapacity : Obligations.AccessBeyondCapacity := by
  intro r q imm s ea
  simp only [List.forall_mem_cons]
  refine ⟨?lb, ?lbu, ?sb, ?lh, ?lhu, ?sh, ?lw, ?sw, List.forall_mem_nil _⟩
  case lb | lbu => exact loadInstr_faultsExactlyBeyond (n := .byte) rfl
  case lh | lhu => exact loadInstr_faultsExactlyBeyond (n := .half) rfl
  case lw => exact loadInstr_faultsExactlyBeyond (n := .word) rfl
  case sb => exact storeInstr_faultsExactlyBeyond (n := .byte) rfl
  case sh => exact storeInstr_faultsExactlyBeyond (n := .half) rfl
  case sw => exact storeInstr_faultsExactlyBeyond (n := .word) rfl

end Sys2Proof.Machine
end

section
/-! Proofs about the branch predictor (51_branch_predictor.md R242). -/

namespace Sys2Proof.Machine

theorem counterTaken_eq_getLsbD (c : BitVec 2) : counterTaken c = c.getLsbD 1 :=
  BitVec.msb_eq_getLsbD_last c

theorem counterTaken_iff_two_le (c : BitVec 2) : counterTaken c = true ↔ 2 ≤ c.toNat :=
  BitVec.msb_eq_true_iff_two_mul_ge.trans (by omega)

/-- Settles O28: a set top bit puts the counter in the upper half of its four states. -/
theorem counterPredictsByTopBit : Obligations.CounterPredictsByTopBit := by
  intro c
  have upperHalf : 2 ≤ c.toNat ↔ c = 2#2 ∨ c = 3#2 := by bv_omega
  exact ⟨counterTaken_eq_getLsbD c, (counterTaken_iff_two_le c).trans upperHalf⟩

end Sys2Proof.Machine
end

section
/-! Proofs about the pipeline cycle (53_pipeline_cycle.md R301, R324, R325, R328). -/

namespace Sys2Proof.Machine

/-! ## The IF body (R301) -/

theorem fetchBody_stopped {s : State} (hrun : s.runs .ifetch = false) : fetchBody s = s := by
  simp [fetchBody, hrun]

theorem fetchBody_misaligned {s : State} (hrun : s.runs .ifetch = true)
    (hpc : s.pc.toNat % 4 ≠ 0) :
    fetchBody s = { s with
      pipe.ifId := { Latch.empty with
        pc := s.pc, valid := true, fault := some (.misalignedFetch s.pc) }
      pc := s.pc + 4#32 } := by
  rw [fetchBody, if_pos hrun, if_pos hpc]

/-- At an aligned pc the latch is decided by `fetchWord`'s answer (R71). -/
theorem fetchBody_fetched {s : State} {v : Word} (hrun : s.runs .ifetch = true)
    (hpc : s.pc.toNat % 4 = 0) (hword : (fetchWord s).2 = .ok v) :
    fetchBody s = { s with
      pipe.ifId := { Latch.empty with pc := s.pc, valid := true, word := v }
      win := (fetchWord s).1
      pc := s.pc + 4#32 } := by
  have hfetch : fetchWord s = ((fetchWord s).1, .ok v) := Prod.ext rfl hword
  rw [fetchBody, if_pos hrun, if_neg (not_not_intro hpc), hfetch]

/-- A fault of `fetchWord` is not raised in IF: it travels in the latch as a tag (R71). -/
theorem fetchBody_faulted {s : State} {f : Fault} (hrun : s.runs .ifetch = true)
    (hpc : s.pc.toNat % 4 = 0) (hfault : (fetchWord s).2 = .error f) :
    fetchBody s = { s with
      pipe.ifId := { Latch.empty with pc := s.pc, valid := true, fault := some f }
      win := (fetchWord s).1
      pc := s.pc + 4#32 } := by
  have hfetch : fetchWord s = ((fetchWord s).1, .error f) := Prod.ext rfl hfault
  rw [fetchBody, if_pos hrun, if_neg (not_not_intro hpc), hfetch]

/-- Settles O35: one lemma for each of the body's four cases. -/
theorem fetchBodyEffect : Obligations.FetchBodyEffect := fun _ =>
  ⟨fetchBody_stopped, fetchBody_misaligned, fun _ => fetchBody_fetched,
    fun _ => fetchBody_faulted⟩

/-! ## The jump redirect (R325) -/

/-- Settles O37: with no flush the step goes on to the redirection, which the jump signal decides;
a flush ends it. -/
theorem jumpRedirect : Obligations.JumpRedirect := by
  intro s t target hjump
  refine ⟨fun hgoesOn => ?_, manageFlow_flushed⟩
  rw [manageFlow_goesOn hgoesOn, redirectFetch_jump hjump, redirect, windowReset]

/-! ## The resolution of a branch (R324, R328) -/

theorem update_idle {c : Config} {p : Predictor} (h : p.pValid = false) (taken : Bool) :
    update c taken p = none := by
  simp [update, h]

/-- An accepted update leaves no prediction pending (R246). -/
theorem update_clears_pending {c : Config} {taken : Bool} {p q : Predictor}
    (h : update c taken p = some q) : q.pValid = false := by
  cases hp : p.pValid with
  | false =>
    rw [update_idle hp] at h
    cases h
  | true =>
    obtain ⟨r, hr, hclear⟩ := update_pending (c := c) hp taken
    obtain rfl : r = q := Option.some.inj (hr.symm.trans h)
    exact hclear

/-- A resolution whose update is accepted is a hit or a misprediction (R324, R328). -/
theorem resolve_updated {s : State} {taken : Bool} {actualTarget : Word} {p : Predictor}
    (hbranch : s.wires.exBranch = some (taken, actualTarget))
    (hupdate : update s.cfg taken s.pred = some p) :
    resolve s = if taken = s.pred.pPred then (predictHit { s with pred := p }, false)
      else (mispredict actualTarget { s with pred := p }, true) := by
  simp only [resolve, hbranch, hupdate]

/-- A hit keeps a branch in flight only where a second one was delayed (R328). -/
theorem predictHit_eq (s : State) :
    predictHit s = { s with
      stats.hits := s.stats.hits + 1
      ctl.branchInFlight := if s.ctl.delayedSecondBranch then s.ctl.branchInFlight else false
      ctl.delayedSecondBranch := false } := by
  rw [predictHit, Bool.if_false_right, Bool.decide_eq_true]

/-- Settles O38: the update clears the pending prediction, and the comparison of the outcome with it
chooses between the flush of R324 and the hit of R328. -/
theorem branchResolution : Obligations.BranchResolution := by
  refine ⟨fun _ => resolve_none, fun s taken actualTarget p hbranch hupdate => ?_⟩
  have hresolve := resolve_updated hbranch hupdate
  refine ⟨update_clears_pending hupdate, fun hwrong => ?_, fun hright => ?_,
    fun _ => manageFlow_flushed⟩
  · rw [hresolve, if_neg hwrong]
    rfl
  · rw [hresolve, if_pos hright, predictHit_eq]

end Sys2Proof.Machine
end

section
/-! Proofs about the hazard arbiter (54_hazard_arbiter.md R341). -/

namespace Sys2Proof

/-- A branch's record names no destination (R85). -/
theorem record_rd_of_isBranch {i : Instr} (hk : i.kind.isBranch = true) (w : Word) :
    (i.record w).rd = 0 := by
  cases i
  case beq | bne | blt | bge | bltu | bgeu => rfl
  all_goals cases hk

/-- The record of an instruction without a register source names none (R85). -/
theorem record_sources_of_no_source {i : Instr}
    (hk : i.kind ∈ [Kind.LUI, .AUIPC, .JAL, .HALT, .ILLEGAL]) (w : Word) :
    (i.record w).rs1 = 0 ∧ (i.record w).rs2 = 0 := by
  cases i
  case lui | auipc | jal | halt | illegal => exact ⟨rfl, rfl⟩
  all_goals simp [Instr.kind] at hk

end Sys2Proof

namespace Sys2Proof.Machine

/-- A consumer whose sources are both x0 meets no hazard: a match needs a destination other than 0
that is one of them (R341). -/
theorem hazardMatch_of_sources_eq_zero {c : Decoded} (h1 : c.rs1 = 0) (h2 : c.rs2 = 0) (l : Latch) :
    hazardMatch c l = false := by
  refine Bool.eq_false_iff.mpr fun hm => ?_
  obtain ⟨hrd, hsource⟩ := (hazardMatch_iff c l).mp hm
  rw [h1, h2, or_self] at hsource
  exact hrd hsource

/-- Settles O32: stores and branches have no destination to match, and the consumers named have no
source to match. -/
theorem hazardMatching : Obligations.HazardMatching := by
  refine ⟨hazardMatch_iff, fun i w c l hl hk => ?producer, fun i w l hk => ?consumer,
    hazardMatch_of_sources_eq_zero rfl rfl⟩
  case producer =>
    have hrd : (i.record w).rd = 0 := hk.elim (record_rd_of_isStore · w) (record_rd_of_isBranch · w)
    exact hazardMatch_of_rd_eq_zero (hl ▸ hrd) c
  case consumer =>
    obtain ⟨h1, h2⟩ := record_sources_of_no_source hk w
    exact hazardMatch_of_sources_eq_zero h1 h2 l

end Sys2Proof.Machine
end

section
/-! Proofs about the encoding (30_encoding.md R83 to R92). -/

namespace Sys2Proof

/-! ## Decoding after encoding (R86 to R92) -/

theorem decodeWord_haltWord (h : Word) : decodeWord h h = .halt := by
  simp [decodeWord]

/-- A word that matches no row of the opcode table is ILLEGAL, unless it is HALT_WORD (R92): every
other answer of the decoder needs the fields of a row. -/
theorem decodeWord_of_no_row {h w : Word} (hrow : ∀ r ∈ opcodeTable, w &&& r.mask ≠ r.pattern)
    (hw : w ≠ h) : decodeWord h w = .illegal w := by
  rw [no_row_iff] at hrow
  apply decodeWord_cases (P := (· = .illegal w))
  case halt => exact fun e => absurd e hw
  case illegal => exact fun _ _ => rfl
  all_goals
    intros
    simp_all

/-- Without HALT_WORD, an encodable instruction's word decodes to it: class by class. -/
theorem decodeWord_encode {h : Word} {i : Instr} (hwf : i.wf = true) (hw : encode h i ≠ h) :
    decodeWord h (encode h i) = i := by
  cases i
  case halt => exact absurd rfl hw
  case jal | jalr => exact decodeWord_encode_of_isJump rfl hwf hw
  case beq | bne | blt | bge | bltu | bgeu => exact decodeWord_encode_of_isBranch rfl hwf hw
  case lb | lh | lw | lbu | lhu => exact decodeWord_of_isLoad rfl hwf rfl hw
  case sb | sh | sw => exact decodeWord_of_isStore rfl hwf rfl hw
  case illegal w =>
    exact decodeWord_of_no_row (fun r hr => bne_iff_ne.mp (List.all_eq_true.mp hwf r hr)) hw
  all_goals exact decodeWord_encode_of_isAlu rfl hwf hw

theorem encodable_iff {h : Word} {i : Instr} :
    i.encodable h = true ↔ i.wf = true ∧ (i = .halt ∨ encode h i ≠ h) := by
  simp [Instr.encodable]

/-- A word is its four bytes, the highest in front (R63). -/
theorem append_bytes (w : Word) :
    w.extractLsb' 24 8 ++ w.extractLsb' 16 8 ++ w.extractLsb' 8 8 ++ w.extractLsb' 0 8 = w := by
  apply BitVec.eq_of_getLsbD_eq
  intro i hi
  simp only [BitVec.getLsbD_append, BitVec.getLsbD_extractLsb']
  interval_cases i <;> rfl

theorem decodeBytes_wordBytes (h w : Word) (rest : List Byte) :
    decodeBytes h (wordBytes w ++ rest) = .ok (decodeWord h w, rest) := by
  simp only [wordBytes, List.cons_append, List.nil_append, decodeBytes]
  exact congrArg (fun v => Except.ok (decodeWord h v, rest)) (append_bytes w)

/-- Settles O1: HALT has the HALT word, and every other encodable instruction a word the decoder
takes apart again. -/
theorem decodeEncodeRoundTrip : Obligations.DecodeEncodeRoundTrip := by
  intro h i rest henc
  obtain ⟨hwf, hhalt⟩ := encodable_iff.mp henc
  have hword : decodeWord h (encode h i) = i := by
    rcases hhalt with rfl | hne
    · exact decodeWord_haltWord h
    · exact decodeWord_encode hwf hne
  exact ⟨hword, by rw [decodeBytes_wordBytes, hword]⟩

/-! ## Encoding after decoding: a word put together from its own fields (R83, R84) -/

theorem encR_of_fields {w : Word} {f7 f3 op} (ho : opcodeOf w = op) (hf3 : funct3Of w = f3)
    (hf7 : funct7Of w = f7) : encR f7 (rs2Of w) (rs1Of w) f3 (rdOf w) op = w := by
  subst ho hf3 hf7
  exact (word_split w).symm

theorem encI_of_fields {w : Word} {f3 op} (ho : opcodeOf w = op) (hf3 : funct3Of w = f3) :
    encI (immIOf w) (rs1Of w) f3 (rdOf w) op = w := by
  subst ho hf3
  rw [immIOf, ← encI_eq]
  apply BitVec.eq_of_getLsbD_eq
  intro i hi
  simp only [rs1Of, funct3Of, rdOf, opcodeOf, BitVec.getLsbD_append, BitVec.getLsbD_extractLsb']
  interval_cases i <;> rfl

theorem encS_of_fields {w : Word} {f3 op} (ho : opcodeOf w = op) (hf3 : funct3Of w = f3) :
    encS (immSOf w) (rs2Of w) (rs1Of w) f3 op = w := by
  subst ho hf3
  rw [immSOf, ← encS_eq]
  apply BitVec.eq_of_getLsbD_eq
  intro i hi
  simp only [rs1Of, rs2Of, funct3Of, opcodeOf, BitVec.getLsbD_append, BitVec.getLsbD_extractLsb']
  interval_cases i <;> simp

theorem encB_of_fields {w : Word} {f3 op} (ho : opcodeOf w = op) (hf3 : funct3Of w = f3) :
    encB (immBOf w) (rs2Of w) (rs1Of w) f3 op = w := by
  subst ho hf3
  have himm := encB_eq (w.extractLsb' 31 1 ++ w.extractLsb' 7 1 ++ w.extractLsb' 25 6 ++
    w.extractLsb' 8 4) (rs2Of w) (rs1Of w) (funct3Of w) (opcodeOf w)
  rw [immBOf]
  refine himm.symm.trans (BitVec.eq_of_getLsbD_eq fun i hi => ?_)
  simp only [rs1Of, rs2Of, funct3Of, opcodeOf, BitVec.getLsbD_append, BitVec.getLsbD_extractLsb']
  interval_cases i <;> simp

theorem encU_of_fields {w : Word} {op} (ho : opcodeOf w = op) :
    encU (immUOf w) (rdOf w) op = w := by
  subst ho
  rw [immUOf, ← encU_eq]
  apply BitVec.eq_of_getLsbD_eq
  intro i hi
  simp only [rdOf, opcodeOf, BitVec.getLsbD_append, BitVec.getLsbD_extractLsb']
  interval_cases i <;> rfl

theorem encJ_of_fields {w : Word} {op} (ho : opcodeOf w = op) :
    encJ (immJOf w) (rdOf w) op = w := by
  subst ho
  have himm := encJ_eq (w.extractLsb' 31 1 ++ w.extractLsb' 12 8 ++ w.extractLsb' 20 1 ++
    w.extractLsb' 21 10) (rdOf w) (opcodeOf w)
  rw [immJOf]
  refine himm.symm.trans (BitVec.eq_of_getLsbD_eq fun i hi => ?_)
  simp only [rdOf, opcodeOf, BitVec.getLsbD_append, BitVec.getLsbD_extractLsb']
  interval_cases i <;> simp

/-! ... and each immediate is one its format holds. -/

theorem imm12_immIOf (w : Word) : imm12 (immIOf w) = true := imm12_signExtend _

theorem imm12_immSOf (w : Word) : imm12 (immSOf w) = true := imm12_signExtend _

theorem immB_immBOf (w : Word) : immB (immBOf w) = true := immB_even _

theorem immU_immUOf (w : Word) : immU (immUOf w) = true := immU_append _

theorem immJ_immJOf (w : Word) : immJ (immJOf w) = true := immJ_even _

theorem encodable_of_encode_eq {h w : Word} {i : Instr} (hw : w ≠ h) (hwf : i.wf = true)
    (henc : encode h i = w) : i.encodable h = true ∧ encode h i = w :=
  ⟨encodable_iff.mpr ⟨hwf, .inr (henc ▸ hw)⟩, henc⟩

/-- Settles O2: whatever row the decoder answers by, the word is put together again from the fields
it was taken apart into. -/
theorem encodeDecodeRoundTrip : Obligations.EncodeDecodeRoundTrip := by
  intro h w
  apply decodeWord_cases (P := fun i => i.encodable h = true ∧ encode h i = w)
  case halt => exact fun e => ⟨rfl, e.symm⟩
  case illegal =>
    exact fun hw hrow => encodable_of_encode_eq hw
      (List.all_eq_true.mpr fun r hr => bne_iff_ne.mpr (hrow r hr)) rfl
  case lui | auipc =>
    exact fun hw ho => encodable_of_encode_eq hw (immU_immUOf w) (encU_of_fields ho)
  case jal => exact fun hw ho => encodable_of_encode_eq hw (immJ_immJOf w) (encJ_of_fields ho)
  case beq | bne | blt | bge | bltu | bgeu =>
    exact fun hw ho hf3 => encodable_of_encode_eq hw (immB_immBOf w) (encB_of_fields ho hf3)
  case sb | sh | sw =>
    exact fun hw ho hf3 => encodable_of_encode_eq hw (imm12_immSOf w) (encS_of_fields ho hf3)
  case jalr | lb | lh | lw | lbu | lhu | addi | slti | sltiu | xori | ori | andi =>
    exact fun hw ho hf3 => encodable_of_encode_eq hw (imm12_immIOf w) (encI_of_fields ho hf3)
  all_goals
    exact fun hw ho hf3 hf7 => encodable_of_encode_eq hw rfl (encR_of_fields ho hf3 hf7)

/-! ## The opcode table (R86 to R92) -/

/-- No word matches both rows. -/
abbrev OpcodeRow.Disjoint (r q : OpcodeRow) : Prop :=
  ∀ w : Word, ¬(w &&& r.mask = r.pattern ∧ w &&& q.mask = q.pattern)

/-- On the bits both masks keep, the patterns differ. -/
theorem disjoint_of_patterns_ne {r q : OpcodeRow}
    (hdiff : r.pattern &&& q.mask ≠ q.pattern &&& r.mask) : r.Disjoint q := by
  rintro w ⟨hr, hq⟩
  rw [← hr, ← hq, BitVec.and_assoc, BitVec.and_assoc, BitVec.and_comm q.mask] at hdiff
  exact hdiff rfl

theorem opcodeTable_disjoint : opcodeTable.Pairwise OpcodeRow.Disjoint := by
  have hdiff : opcodeTable.Pairwise fun r q => r.pattern &&& q.mask ≠ q.pattern &&& r.mask := by
    decide
  exact hdiff.imp disjoint_of_patterns_ne

/-- The table's kind is that of any row the word matches, since only one row does. -/
theorem tableKind_of_row {h w : Word} {r : OpcodeRow} (hw : w ≠ h) (hr : r ∈ opcodeTable)
    (hmatch : w &&& r.mask = r.pattern) : tableKind h w = r.kind := by
  have hfound : (opcodeTable.find? fun q => w &&& q.mask == q.pattern).isSome :=
    List.find?_isSome.mpr ⟨r, hr, beq_iff_eq.mpr hmatch⟩
  obtain ⟨q, hq⟩ := Option.isSome_iff_exists.mp hfound
  have hsymm : Std.Symm OpcodeRow.Disjoint := ⟨fun _ _ hd v hv => hd v hv.symm⟩
  have hqr : q = r := by
    by_contra hne
    exact opcodeTable_disjoint.forall (List.mem_of_find?_eq_some hq) hr hne w
      ⟨by simpa using List.find?_some hq, hmatch⟩
  rw [tableKind, if_neg hw, hq, hqr]

theorem tableKind_of_no_row {h w : Word} (hw : w ≠ h)
    (hrow : ∀ r ∈ opcodeTable, w &&& r.mask ≠ r.pattern) : tableKind h w = .ILLEGAL := by
  have hnone : (opcodeTable.find? fun q => w &&& q.mask == q.pattern) = none :=
    List.find?_eq_none.mpr fun r hr => by simpa using hrow r hr
  rw [tableKind, if_neg hw, hnone]

theorem tableKind_of_opcode {h w : Word} {k : Kind} {op : BitVec 7} (hw : w ≠ h)
    (ho : opcodeOf w = op) (hr : ⟨k, 0#25 ++ op, 0x0000007F#32⟩ ∈ opcodeTable) :
    k = tableKind h w :=
  (tableKind_of_row hw hr (row_opcode.mpr ho)).symm

theorem tableKind_of_funct3 {h w : Word} {k : Kind} {f3 : BitVec 3} {op : BitVec 7} (hw : w ≠ h)
    (ho : opcodeOf w = op) (hf3 : funct3Of w = f3)
    (hr : ⟨k, 0#17 ++ f3 ++ 0#5 ++ op, 0x0000707F#32⟩ ∈ opcodeTable) : k = tableKind h w :=
  (tableKind_of_row hw hr (row_funct3.mpr ⟨hf3, ho⟩)).symm

theorem tableKind_of_funct7 {h w : Word} {k : Kind} {f7 op : BitVec 7} {f3 : BitVec 3} (hw : w ≠ h)
    (ho : opcodeOf w = op) (hf3 : funct3Of w = f3) (hf7 : funct7Of w = f7)
    (hr : ⟨k, f7 ++ 0#10 ++ f3 ++ 0#5 ++ op, 0xFE00707F#32⟩ ∈ opcodeTable) : k = tableKind h w :=
  (tableKind_of_row hw hr (row_funct7.mpr ⟨hf7, hf3, ho⟩)).symm

theorem decodeWord_kind (h w : Word) : (decodeWord h w).kind = tableKind h w := by
  apply decodeWord_cases (P := fun i => i.kind = tableKind h w) <;> simp only [Instr.kind]
  case halt => exact fun e => by rw [tableKind, if_pos e]
  case illegal => exact fun hw hrow => (tableKind_of_no_row hw hrow).symm
  case lui | auipc | jal => exact fun hw ho => tableKind_of_opcode hw ho (by decide)
  case slli | srli | srai | add | sub | sll | slt | sltu | xor | srl | sra | or | and =>
    exact fun hw ho hf3 hf7 => tableKind_of_funct7 hw ho hf3 hf7 (by decide)
  all_goals exact fun hw ho hf3 => tableKind_of_funct3 hw ho hf3 (by decide)

theorem kind_ne_nop (i : Instr) : i.kind ≠ .NOP := by
  cases i <;> exact nofun

/-- Settles O3: the decoder's cases are the table's rows, and the rows exclude each other. -/
theorem decodeFollowsOpcodeTable : Obligations.DecodeFollowsOpcodeTable :=
  ⟨fun h w => ⟨decodeWord_kind h w, kind_ne_nop _⟩, opcodeTable_disjoint⟩

/-! ## The fields of the decoded record (R85) -/

/-- The register-register kinds (R90), as R85's rules group them. -/
abbrev Kind.isAluReg (k : Kind) : Bool :=
  [Kind.ADD, .SUB, .SLL, .SLT, .SLTU, .XOR, .SRL, .SRA, .OR, .AND].contains k

section
variable (h w : Word)

theorem record_rawFields (i : Instr) :
    (i.record w).opcode = opcodeOf w ∧ (i.record w).funct3 = funct3Of w ∧
      (i.record w).funct7 = funct7Of w := by
  cases i <;> exact ⟨rfl, rfl, rfl⟩

theorem decoded_rd : ((decodeWord h w).record w).rd =
    if (decodeWord h w).kind.isLoad || (decodeWord h w).kind.isJump ||
      (decodeWord h w).kind.isAlu then rdOf w else 0 := by
  apply decodeWord_cases (P := fun i => (i.record w).rd =
    if i.kind.isLoad || i.kind.isJump || i.kind.isAlu then rdOf w else 0)
  all_goals (intros; rfl)

theorem decoded_rs1 : ((decodeWord h w).record w).rs1 =
    if [Kind.LUI, .AUIPC, .JAL, .HALT, .ILLEGAL].contains (decodeWord h w).kind then 0
      else rs1Of w := by
  apply decodeWord_cases (P := fun i => (i.record w).rs1 =
    if [Kind.LUI, .AUIPC, .JAL, .HALT, .ILLEGAL].contains i.kind then 0 else rs1Of w)
  all_goals (intros; rfl)

theorem decoded_rs2 : ((decodeWord h w).record w).rs2 =
    if (decodeWord h w).kind.isBranch || (decodeWord h w).kind.isStore ||
      (decodeWord h w).kind.isAluReg then rs2Of w else 0 := by
  apply decodeWord_cases (P := fun i => (i.record w).rs2 =
    if i.kind.isBranch || i.kind.isStore || i.kind.isAluReg then rs2Of w else 0)
  all_goals (intros; rfl)

theorem decoded_shamt : ((decodeWord h w).record w).shamt =
    if [Kind.SLLI, .SRLI, .SRAI].contains (decodeWord h w).kind then shamtOf w else 0 := by
  apply decodeWord_cases (P := fun i => (i.record w).shamt =
    if [Kind.SLLI, .SRLI, .SRAI].contains i.kind then shamtOf w else 0)
  all_goals (intros; rfl)

/-- The immediate a record of kind `k` takes from its word: by format, I for the rest (R84, R85). -/
abbrev Kind.immOf (k : Kind) : Word :=
  if k.isAluReg || [Kind.HALT, .ILLEGAL].contains k then 0
  else if k.isBranch then immBOf w
  else if k.isStore then immSOf w
  else if [Kind.LUI, .AUIPC].contains k then immUOf w
  else if k = .JAL then immJOf w
  else immIOf w

theorem decoded_imm : ((decodeWord h w).record w).imm = (decodeWord h w).kind.immOf w := by
  apply decodeWord_cases (P := fun i => (i.record w).imm = i.kind.immOf w)
  all_goals (intros; rfl)

end

/-- Settles O4: field by field, each decoder's case by case. -/
theorem recordFieldsFollowFormat : Obligations.RecordFieldsFollowFormat := by
  intro h w
  dsimp only
  rw [Machine.record_kind]
  obtain ⟨hopcode, hfunct3, hfunct7⟩ := record_rawFields w (decodeWord h w)
  exact ⟨hopcode, hfunct3, hfunct7, decoded_rd h w, decoded_rs1 h w, decoded_rs2 h w,
    decoded_shamt h w, decoded_imm h w⟩

/-- Settles O5: the bytes form their word, and each word runs through the decoder's cases. -/
theorem specWordsDecode : Obligations.SpecWordsDecode := by
  unfold Obligations.SpecWordsDecode
  decide

end Sys2Proof
end

section
/-! Proofs about single instructions in their stages: comparisons and shifts (40_alu_ops.md), JALR and
the branches (41_control_transfer.md), a load after a store (42_load_store.md), and the sentinels
(43_sentinels.md). -/

namespace Sys2Proof.Machine

/-! ## Comparisons and shifts (R120 to R122) -/

/-- Whether the sign of the wrapped difference tells the order: within the signed range the
difference does not wrap, and one step outside it turns its sign around. -/
theorem sign_of_difference_iff (a b : Word) :
    (a - b).msb = decide (a.toInt < b.toInt) ↔
      -(2 ^ 31) ≤ a.toInt - b.toInt ∧ a.toInt - b.toInt < 2 ^ 31 := by
  have ha := a.toInt_lt
  have ha' := a.le_toInt
  have hb := b.toInt_lt
  have hb' := b.le_toInt
  rw [BitVec.msb_eq_toInt, BitVec.toInt_sub, decide_eq_decide, Int.bmod]
  norm_num at *
  split <;> omega

/-- Settles O13: the equality and unsigned comparison of the ALU are exact, the signed one is as
`sign_of_difference_iff` says. -/
theorem signOfDifferenceAndOverflow : Obligations.SignOfDifferenceAndOverflow := by
  intro a b
  rw [aluEq_eq, ltu_eq, lts_signOfDifference, lts_trueSigned]
  exact ⟨decide_eq_true_iff, decide_eq_true_iff, decide_eq_true_iff, sign_of_difference_iff a b⟩

theorem lts_eq (c : SignedCmp) (a b : Word) :
    lts c a b = if c = .trueSigned then decide (a.toInt < b.toInt) else (a - b).msb := by
  cases c
  · rfl
  · exact lts_trueSigned a b

theorem alu_sll (a b : Word) : alu a b .sll = a <<< (b.toNat % 32) := by
  rw [alu, shiftAmount_eq]

theorem alu_srl (a b : Word) : alu a b .sr false = a >>> (b.toNat % 32) := by
  simp [alu, shiftAmount_eq]

theorem alu_sra (a b : Word) : alu a b .sr true = a.sshiftRight (b.toNat % 32) := by
  simp [alu, shiftAmount_eq]

/-- Settles O8: the ALU's shifts take the low five bits of B. -/
theorem registerShiftResults : Obligations.RegisterShiftResults := by
  intro h rd rs1 rs2 s A n
  simp only [List.forall_mem_cons]
  refine ⟨?sll, ?srl, ?sra, List.forall_mem_nil _⟩
  case sll => exact aluInstr_result rfl rfl rfl (by rw [← alu_sll]; rfl)
  case srl => exact aluInstr_result rfl rfl rfl (by rw [← alu_srl]; rfl)
  case sra => exact aluInstr_result rfl rfl rfl (by rw [← alu_sra]; rfl)

/-- Settles O10: the signed comparisons are `lts` under the configured setting, the unsigned ones
exact. -/
theorem comparisonResults : Obligations.ComparisonResults := by
  intro h rd rs1 rs2 j s imm A B less wi wr
  have hless : ∀ a b, less a b = lts s.cfg.signedCmp a b := fun a b => (lts_eq _ a b).symm
  have henc : ∀ f, encI imm rs1 f rd 0x13#7 = wi f := fun f => (encI_eq j rs1 f rd _).symm
  have himm : imm12 imm = true := imm12_signExtend j
  simp only [List.forall_mem_cons, hless, ← ltu_eq]
  refine ⟨?slti, ?sltiu, ?slt, ?sltu, List.forall_mem_nil _⟩
  case slti | sltiu => exact aluInstr_result rfl himm (henc _) rfl
  case slt | sltu => exact aluInstr_result rfl rfl rfl rfl

/-- Settles O11: each word is the encoding of the instruction with the shifted immediate. -/
theorem upperImmediateResults : Obligations.UpperImmediateResults := by
  intro h rd j s imm
  have himm : immU imm = true := immU_append j
  simp only [List.forall_mem_cons]
  refine ⟨?lui, ?auipc, List.forall_mem_nil _⟩
  all_goals exact aluInstr_result rfl himm (encU_eq j rd _).symm rfl

/-! ## JALR and the branches (R164, R165, R168, R169) -/

/-- Settles O15: the encoding, then each stage in turn. -/
theorem jalrInEveryStage : Obligations.JalrInEveryStage := by
  intro h rd rs1 j s imm w link
  have henc : encode h (.jalr rd rs1 imm) = w := (encI_eq j rs1 0#3 rd 0x67#7).symm
  have hwf : (Instr.jalr rd rs1 imm).wf = true := imm12_signExtend j
  exact ⟨henc ▸ decodeWord_encode_of_isJump rfl hwf, rfl, rfl, exec_mem_pass rfl rfl s,
    exec_wb (i := .jalr rd rs1 imm) nofun s.pipe.curWb.word s⟩

/-- Settles O17: the conditions are `lts` under the configured setting and its negation. -/
theorem signedBranchConditions : Obligations.SignedBranchConditions := by
  intro h rs1 rs2 j s imm A B less
  have hless : less = lts s.cfg.signedCmp A B := (lts_eq _ A B).symm
  have himm : immB imm = true := immB_even j
  simp only [List.forall_mem_cons, hless]
  refine ⟨?blt, ?bge, List.forall_mem_nil _⟩
  all_goals exact branchInstr_resolves rfl himm (encB_eq ..).symm rfl

theorem assertBranch_eq (target : Word) (s : State) :
    assertBranch target s = { s with
      wires.idBranch := if s.wires.idFresh then some target else s.wires.idBranch } := by
  unfold assertBranch
  split <;> rfl

/-- ID of a branch: its record, its operands, and the signal on a fresh decode (R303, R304). -/
theorem exec_id_branch_eq {i : Instr} (hb : i.kind.isBranch = true) (s : State) :
    exec i (s.inPhase .id) = .next (assertBranch
      (s.pipe.curId.pc + (i.record s.pipe.curId.word).imm) (idDecode i (s.inPhase .id))) := by
  cases i
  case beq | bne | blt | bge | bltu | bgeu => rfl
  all_goals cases hb

/-- An instruction that names no destination writes nothing in WB (R310). -/
theorem exec_wb_of_rd_eq_zero {i : Instr} (hi : i ≠ .halt) {w : Word} (hrd : (i.record w).rd = 0)
    (s : State) : exec i (s.inPhase .wb) = .next (s.inPhase .wb) := by
  rw [exec_wb hi w s, hrd, wbWrite_zero]

theorem branchSignal_asserted {s : State} {target : Word} (h : s.wires.idBranch = some target) :
    branchSignal s = { s with
      ctl.branchInFlight := true
      ctl.delayedSecondBranch := s.ctl.branchInFlight || s.ctl.delayedSecondBranch
      ctl.branchTarget := target } := by
  simp only [branchSignal, h]

/-- Nothing is consulted without a branch in flight, or while a prediction is pending (R326). -/
theorem consult_idle {s : State} (h : s.ctl.branchInFlight = false ∨ s.pred.pValid = true) :
    consult s = s := by
  unfold consult
  split
  case isTrue hf => rw [predict_pending (h.resolve_left (by simp [hf]))]
  case isFalse => rfl

theorem predict_idle {c : Config} {pc : Word} {p : Predictor} (h : p.pValid = false) :
    predict c pc p = some (prediction c p pc, { p with
      pValid := true, pAddr := addrIdx c pc, pCtr := selectCounter c p pc
      pPred := prediction c p pc }) := by
  simp [predict, h]

theorem consult_predicts {s : State} {taken : Bool} {q : Predictor}
    (hf : s.ctl.branchInFlight = true)
    (hp : predict s.cfg s.pipe.curId.pc s.pred = some (taken, q)) :
    consult s = if taken then redirect s.ctl.branchTarget { s with pred := q }
      else { s with pred := q } := by
  cases taken <;> simp [consult, hf, hp]

/-- Settles O18: the stages in turn, then the signal and the consultation of the management step. -/
theorem branchPassage : Obligations.BranchPassage := by
  refine ⟨fun i s hb => ?stages, fun s t => ?management⟩
  case stages =>
    intro d
    obtain ⟨hload, hstore, hhalt⟩ : i.kind.isLoad = false ∧ i.kind.isStore = false ∧ i ≠ .halt := by
      cases i
      case beq | bne | blt | bge | bltu | bgeu => exact ⟨rfl, rfl, nofun⟩
      all_goals cases hb
    have hrd : d.rd = 0 := record_rd_of_isBranch hb _
    refine ⟨?id, fun hp => ?ex, exec_mem_pass hload hstore s,
      exec_wb_of_rd_eq_zero hhalt hrd s, hrd⟩
    case id => rw [exec_id_branch_eq hb, assertBranch_eq]; rfl
    case ex =>
      obtain ⟨taken, hexec⟩ := exec_ex_branch hb 0 s
      rw [hexec, exBranch_unpredicted (s := s.inPhase .ex) hp]
      rfl
  case management =>
    refine ⟨branchSignal_idle, fun target => branchSignal_asserted, fun _ => manageFlow_goesOn,
      fun hj h => (redirectFetch_consult hj).trans (consult_idle h), fun hj hf hp => ?consulted⟩
    case consulted =>
      have hpredict := predict_idle (c := t.cfg) (pc := t.pipe.curId.pc) hp
      exact ⟨_, _, hpredict, (redirectFetch_consult hj).trans (consult_predicts hf hpredict)⟩

/-! ## A load after a store (R202) -/

/-- The bytes of a width at the low end of a word, the others 0. -/
def lowBytes (v : Word) : Width → Word
  | .byte => (v.extractLsb' 0 8).zeroExtend 32
  | .half => (v.extractLsb' 0 16).zeroExtend 32
  | .word => v

/-- A load puts the bytes of its width together again to the word a store took them from. -/
theorem memValue_eq_lowBytes {m : List Host.Cell} {a : Nat} {v : Word} {n : Width}
    (h : ∀ k, k < n.bytes → memByte m (a + k) = v.extractLsb' (8 * k) 8) :
    memValue m a n = lowBytes v n := by
  have h0 := h 0 (by cases n <;> decide)
  rw [Nat.add_zero] at h0
  cases n
  case byte => rw [memValue, h0, lowBytes]
  case half =>
    rw [memValue, h0, h 1 (by decide), lowBytes]
    refine congrArg _ (BitVec.eq_of_getLsbD_eq fun i hi => ?_)
    simp only [BitVec.getLsbD_append, BitVec.getLsbD_extractLsb']
    interval_cases i <;> rfl
  case word => rw [memValue, h0, h 1 (by decide), h 2 (by decide), h 3 (by decide), append_bytes, lowBytes]

/-- What R202 says of a store `i` and a load `j` of one width: the load hands on the store's bytes,
widened as the load widens. -/
theorem load_after_store {i j : Instr} {rd : RegIdx} {n : Width} {se : Bool} {s t u : State}
    {out : Word}
    (hstore : exec i (s.inPhase .mem) = .next (memStore n (s.inPhase .mem)))
    (hload : exec j (u.inPhase .mem) = .next (memLoad rd n se (u.inPhase .mem)))
    (hout : widen (lowBytes s.pipe.curMem.b n) n se = out)
    (hm : Memory.wf s.mem = true) (hfit : s.pipe.curMem.out.toNat + n.bytes ≤ s.cfg.memCapacity)
    (ht : exec i (s.inPhase .mem) = .next t) (hcfg : u.cfg = s.cfg)
    (hea : u.pipe.curMem.out = s.pipe.curMem.out)
    (hkept : ∀ a, s.pipe.curMem.out.toNat ≤ a → a < s.pipe.curMem.out.toNat + n.bytes →
      u.readByte a = t.readByte a) :
    exec j (u.inPhase .mem) = .next { u.inPhase .mem with
      pipe.memWb := { u.pipe.curMem with out := out }
      fw := u.fw.publishMem rd out } := by
  obtain ⟨m, hnext, -, hbytes⟩ := storeInstr_mem hstore hm hfit
  obtain rfl := Host.Outcome.next.inj (ht.symm.trans hnext)
  refine loadInstr_mem hload ?_ (hea ▸ hcfg ▸ hfit)
  rw [hea, memValue_eq_lowBytes (v := s.pipe.curMem.b) fun k hk => ?_, hout]
  have hin : s.pipe.curMem.out.toNat ≤ s.pipe.curMem.out.toNat + k ∧
      s.pipe.curMem.out.toNat + k < s.pipe.curMem.out.toNat + n.bytes := by omega
  calc memByte u.mem (s.pipe.curMem.out.toNat + k)
      = memByte m (s.pipe.curMem.out.toNat + k) := hkept _ hin.1 hin.2
    _ = s.pipe.curMem.b.extractLsb' (8 * k) 8 := by
        rw [hbytes, if_pos hin, Nat.add_sub_cancel_left]

/-- Settles O22: each pair of a store and a load of its width. -/
theorem loadReturnsWhatStorePut : Obligations.LoadReturnsWhatStorePut := by
  intro rs1 rs2 rd base imm imm' s t u v ea
  simp only [List.forall_mem_cons]
  refine ⟨?lb, ?lbu, ?lh, ?lhu, ?lw, List.forall_mem_nil _⟩
  case lb => exact load_after_store (n := .byte) rfl rfl (widen_byte_signed _)
  case lbu => exact load_after_store (n := .byte) rfl rfl rfl
  case lh => exact load_after_store (n := .half) rfl rfl (widen_half_signed _)
  case lhu => exact load_after_store (n := .half) rfl rfl rfl
  case lw => exact load_after_store (n := .word) rfl rfl rfl

/-! ## HALT, ILLEGAL and the bubble (R210 to R212) -/

/-- Settles O23: the stages in turn, then what the management step makes of WB's signal, and of
EX's alone. -/
theorem haltInEveryStage : Obligations.HaltInEveryStage := by
  intro h s
  refine ⟨decodeWord_haltWord h, ?id, rfl, exec_mem_pass rfl rfl s, exec_wb_halt s,
    fun f => manage_wbHalt, fun hwb hex hreq => ?halting⟩
  case id => exact congrArg _ (idDecode_of_no_source (i := .halt) (s := s.inPhase .id) rfl rfl)
  case halting =>
    have hsignal : haltSignal s = { s with run.halting := true } := by simp [haltSignal, hex]
    rw [manage_halting hwb (by rw [hsignal]), hsignal]
    exact memorySignal_idle hreq

/-- Settles O24: the decoder's last case, then the stages in turn. -/
theorem illegalInEveryStage : Obligations.IllegalInEveryStage := by
  intro h w s
  refine ⟨fun hrow hw => decodeWord_of_no_row hrow hw, ?id, rfl, exec_mem_pass rfl rfl s, rfl⟩
  case id =>
    exact congrArg _ (idDecode_of_no_source (i := .illegal w) (s := s.inPhase .id) rfl rfl)

/-- Settles O25: each body's branch for a latch without an instruction, and EX's for a tagged one. -/
theorem bubbleDoesNothing : Obligations.BubbleDoesNothing := by
  intro s
  refine ⟨fun hrun hl => ?id, fun hrun hi hf => ?ex, fun hrun hi => ?mem, fun hrun hi => ?wb,
    fun f hrun hf => ?tagged, fun c l hl => hazardMatch_of_rd_eq_zero (by rw [hl]; rfl) c,
    hazardMatch_of_sources_eq_zero rfl rfl⟩
  case id =>
    have hbubble : (s.pipe.curId.valid && s.pipe.curId.fault.isNone) = false := by
      rcases hl with hv | hf
      · simp [hv]
      · simp [Option.isNone_eq_false_iff, Option.isSome_iff_ne_none, hf]
    simp [decodeBody, hrun, hbubble, idBubble]
  case ex => simp [executeBody, hrun, hi, hf, exBubble, exPass]
  case mem => simp [memoryBody, hrun, hi, memBubble, memPass]
  case wb => simp [writeBackBody, hrun, hi, wbBubble, wbNothing]
  case tagged => simp [executeBody, hrun, hf, raiseInEx, State.haltRecord]

end Sys2Proof.Machine
end

section
/-! Proofs about the clock (50_clock.md), the predictor (51_branch_predictor.md), forwarding
(52_forwarding.md), the arbiter (54_hazard_arbiter.md) and the window (20_memory.md). -/

namespace Sys2Proof.Machine

/-! ## The clock (R220 to R225, R323) -/

theorem isStalled_iff {s : State} {p : Stage} : s.isStalled p = true ↔ 0 < s.clock.stall.get p := by
  simp [State.isStalled]

theorem isDeferred_iff {s : State} {p : Stage} :
    s.isDeferred p = true ↔ 0 < s.clock.defer.get p := by
  simp [State.isDeferred]

theorem memoryIdle_iff {s : State} : s.memoryIdle = true ↔ s.clock.memBusy = 0 := by
  simp [State.memoryIdle]

theorem haltSignal_asserted {s : State} (h : s.wires.exHalt = true) :
    haltSignal s = { s with run.halting := true } := by
  simp [haltSignal, h]

theorem haltSignal_idle {s : State} (h : s.wires.exHalt = false) : haltSignal s = s := by
  simp [haltSignal, h]

theorem memorySignal_with_halting (s : State) (b : Bool) :
    memorySignal { s with run.halting := b } = { memorySignal s with run.halting := b } := by
  unfold memorySignal
  split <;> rfl

theorem with_halting_self {s : State} {b : Bool} (h : s.run.halting = b) :
    { s with run.halting := b } = s := by
  rw [← h]

/-- Without WB's signal the management step ends with the memory request exactly when the machine
halts or begins to (R320, R322). -/
theorem manage_running {s : State} (h : s.wires.wbHalt = none) :
    manage s = if s.wires.exHalt || s.run.halting then
        { memorySignal s with run.halting := true }
      else manageFlow (memorySignal s) := by
  cases hex : s.wires.exHalt with
  | true =>
    rw [manage_halting h (by rw [haltSignal_asserted hex]), haltSignal_asserted hex,
      memorySignal_with_halting]
    rfl
  | false =>
    cases hh : s.run.halting with
    | true =>
      rw [manage_halting h (by rw [haltSignal_idle hex, hh]), haltSignal_idle hex]
      exact (with_halting_self ((memorySignal_run s).symm ▸ hh)).symm
    | false =>
      rw [manage_flow h (by rw [haltSignal_idle hex, hh]), haltSignal_idle hex]
      rfl

/-- Settles O26: requests add to their counter, tests ask whether one is positive, and the
management step makes the memory request before it returns halting. -/
theorem clockRequests : Obligations.ClockRequests := by
  intro s p q n
  exact ⟨get_add _ _ _ _, rfl, get_add _ _ _ _, rfl, isStalled_iff, isDeferred_iff, rfl,
    memoryIdle_iff, memorySignal_idle, fun h => memorySignal_request h, manage_running⟩

theorem tick_stall_get (c : Clock) (p : Stage) : c.tick.stall.get p = c.stall.get p - 1 :=
  get_decay _ p

theorem tick_defer_get (c : Clock) (p : Stage) :
    c.tick.defer.get p = if c.memBusy = 0 then c.defer.get p - 1 else c.defer.get p := by
  simp only [Clock.tick]
  split
  · exact get_decay _ p
  · rfl

/-- Settles O27, by induction on the ticks: a defer counter loses one in each tick that finds the
busy counter at 0, that is from tick `memBusy` on. -/
theorem countersAfterTicks : Obligations.CountersAfterTicks := by
  intro c k p
  induction k with
  | zero => simp
  | succ k ih =>
    obtain ⟨hstall, hbusy, hdefer⟩ := ih
    rw [Function.iterate_succ_apply']
    refine ⟨?stall, ?busy, ?defer⟩
    case stall => rw [tick_stall_get, hstall]; omega
    case busy =>
      show (Clock.tick^[k] c).memBusy - 1 = c.memBusy - (k + 1)
      omega
    case defer =>
      rw [tick_defer_get, hbusy, hdefer]
      split <;> omega

/-! ## The predictor (R241 to R247) -/

theorem counterNext_taken (c : BitVec 2) : (counterNext c true).toNat = min (c.toNat + 1) 3 := by
  revert c
  decide

theorem counterNext_notTaken (c : BitVec 2) : (counterNext c false).toNat = c.toNat - 1 := by
  revert c
  decide

/-- Settles O29, by induction on the number of outcomes. -/
theorem counterSaturates : Obligations.CounterSaturates := by
  intro c n
  induction n generalizing c with
  | zero => exact ⟨by simp; omega, rfl⟩
  | succ n ih =>
    simp only [List.replicate_succ, List.foldl_cons]
    obtain ⟨htaken, -⟩ := ih (counterNext c true)
    obtain ⟨-, hnot⟩ := ih (counterNext c false)
    rw [htaken, hnot, counterNext_taken, counterNext_notTaken]
    omega

theorem addrIdx_eq (c : Config) (pc : Word) : addrIdx c pc = (pc >>> 2).toNat % 2 ^ c.idxBits := by
  simp [addrIdx, Config.pcIndexLsb, Nat.shiftRight_eq_div_pow]

/-- An update touches the pending marker and the two tables only (R246). -/
theorem update_frame {c : Config} {taken : Bool} {p q : Predictor} (h : update c taken p = some q) :
    q = { p with pValid := false, bht := q.bht, pht := q.pht } := by
  unfold update at h
  split at h
  · obtain rfl := Option.some.inj h
    cases c.predictor <;> rfl
  · cases h

/-- The counter an update moves: the selected one, in the two table modes (R246). -/
theorem update_counter {c : Config} {taken : Bool} {p q : Predictor} (h : update c taken p = some q)
    (hbht : tableWf 0#2 p.bht = true) (k : Nat) :
    q.counter k = if (c.predictor = .oneLevel ∨ c.predictor = .twoLevel) ∧ k = p.pCtr then
      counterNext (p.counter k) taken else p.counter k := by
  have hput : tableGet 0#2 (tablePut 0#2 p.bht p.pCtr (counterNext (p.counter p.pCtr) taken)) k =
      if k = p.pCtr then counterNext (p.counter k) taken else p.counter k := by
    rw [tableGet_put _ _ _ _ hbht]
    by_cases hk : k = p.pCtr
    · rw [if_pos hk, if_pos hk, hk]
    · rw [if_neg hk, if_neg hk, Predictor.counter]
  unfold update at h
  split at h
  · obtain rfl := Option.some.inj h
    simp only [Predictor.counter] at hput ⊢
    cases c.predictor <;> simp [hput]
  · cases h

/-- The history an update moves: the one of the address index, in the two-level mode (R246). -/
theorem update_history {c : Config} {taken : Bool} {p q : Predictor} (h : update c taken p = some q)
    (hpht : tableWf 0 p.pht = true) (k : Nat) :
    q.history k = if c.predictor = .twoLevel ∧ k = p.pAddr then
      (2 * p.history k + if taken then 1 else 0) % 2 ^ c.histLen else p.history k := by
  have hput : tableGet 0 (tablePut 0 p.pht p.pAddr (shiftHistory c (p.history p.pAddr) taken)) k =
      if k = p.pAddr then (2 * p.history k + if taken then 1 else 0) % 2 ^ c.histLen
        else p.history k := by
    rw [tableGet_put _ _ _ _ hpht]
    by_cases hk : k = p.pAddr
    · rw [if_pos hk, if_pos hk, hk, shiftHistory, Nat.mul_comm]
    · rw [if_neg hk, if_neg hk, Predictor.history]
  unfold update at h
  split at h
  · obtain rfl := Option.some.inj h
    simp only [Predictor.history] at hput ⊢
    cases c.predictor <;> simp [hput]
  · cases h

/-- Settles O30: predict by mode, update by the laws of its two tables. -/
theorem predictorProtocol : Obligations.PredictorProtocol := by
  intro c p pc taken a ctr ans
  refine ⟨predict_pending, fun hp => ?predicts, fun hp => update_idle hp taken,
    fun hp hbht hpht => ?updates⟩
  case predicts =>
    have hctr : selectCounter c p pc = ctr := by
      simp only [selectCounter, addrIdx_eq]
      rfl
    have hans : prediction c p pc = ans := by
      simp only [prediction, hctr, counterTaken_eq_getLsbD]
      rfl
    rw [predict_idle hp, hans, hctr, addrIdx_eq]
  case updates =>
    obtain ⟨q, hq, -⟩ := update_pending (c := c) hp taken
    exact ⟨q, hq, update_frame hq, update_counter hq hbht, update_history hq hpht⟩

/-! ## Forwarding (R270 to R277) -/

theorem lookup_publishEx (t : FwTable) (p : BypassPriority) (r q : RegIdx) (v : Word) :
    (t.publishEx r v).lookup p q = t.lookup p q := by
  simp only [FwTable.lookup, publishEx_visEx, publishEx_visMem]

theorem lookup_publishMem (t : FwTable) (p : BypassPriority) (r q : RegIdx) (v : Word) :
    (t.publishMem r v).lookup p q = t.lookup p q := by
  simp only [FwTable.lookup, publishMem_visEx, publishMem_visMem]

/-- A visible EX slot is found unless a visible MEM slot of the register goes before it (R271). -/
theorem lookup_visEx {t : FwTable} {p : BypassPriority} {r : RegIdx} {v : Word} (hr : r ≠ 0)
    (hvis : t.visEx = ⟨r, v⟩) (h : p = .exFirst ∨ t.visMem.reg ≠ r) : t.lookup p r = some v := by
  cases p
  case exFirst => simp only [FwTable.lookup, if_neg hr, hvis, if_true]
  case memFirst => simp only [FwTable.lookup, if_neg hr, if_neg (h.resolve_left nofun), hvis, if_true]

/-- A visible MEM slot is found unless a visible EX slot of the register goes before it (R271). -/
theorem lookup_visMem {t : FwTable} {p : BypassPriority} {r : RegIdx} {v : Word} (hr : r ≠ 0)
    (hvis : t.visMem = ⟨r, v⟩) (h : p = .memFirst ∨ t.visEx.reg ≠ r) : t.lookup p r = some v := by
  cases p
  case exFirst => simp only [FwTable.lookup, if_neg hr, if_neg (h.resolve_left nofun), hvis, if_true]
  case memFirst => simp only [FwTable.lookup, if_neg hr, hvis, if_true]

theorem lookup_empty {t : FwTable} (hex : t.visEx.reg = 0) (hmem : t.visMem.reg = 0)
    (p : BypassPriority) (r : RegIdx) : t.lookup p r = none := by
  by_cases hr : r = 0
  · rw [hr, lookup_zero]
  · cases p <;> simp only [FwTable.lookup, hex, hmem, if_neg hr, if_neg (Ne.symm hr)]

theorem forwardStep_eq (s : State) :
    forwardStep s = if s.clock.memBusy = 0 then
      { s with fw := s.fw.advance (decide (0 < s.clock.stall.ex)) (decide (0 < s.clock.stall.mem)) }
      else s := by
  by_cases h : s.clock.memBusy = 0
  · rw [forwardStep, if_pos (memoryIdle_iff.mpr h), if_pos h]
    rfl
  · rw [forwardStep, if_neg (fun e => h (memoryIdle_iff.mp e)), if_neg h]

theorem stop_none {s : State} (hmem : s.wires.memStop = none) (hex : s.wires.exStop = none) :
    s.stop = none := by
  simp [State.stop, hmem, hex]

/-- Settles O31: publishing fills a pending slot, an advance makes it visible, and the operand read
looks at the visible slots. -/
theorem publishedValueIsVisibleNextCycle : Obligations.PublishedValueIsVisibleNextCycle := by
  refine ⟨fun t p r v b => ?table, fun t ex mem => rfl,
    fun t p r hex hmem => lookup_empty hex hmem p r, fun s => ?state⟩
  case table =>
    refine ⟨publishEx_zero t v, publishMem_zero t v, lookup_zero t p,
      fun q => ⟨lookup_publishEx t p r q v, lookup_publishMem t p r q v⟩, fun hr => ?_, rfl, rfl⟩
    have hex : ((t.publishEx r v).advance false b).visEx = ⟨r, v⟩ := publishEx_pendEx t hr v
    have hmem : ((t.publishMem r v).advance b false).visMem = ⟨r, v⟩ := publishMem_pendMem t hr v
    exact ⟨lookup_visEx hr hex (.inl rfl), lookup_visMem hr hmem (.inl rfl),
      fun h => lookup_visEx hr hex (.inr h), fun h => lookup_visMem hr hmem (.inr h)⟩
  case state =>
    refine ⟨forwardStep_eq s, fun hmem hex => finishCycle_run s (stop_none hmem hex),
      operand_zero s, fun r hr => ⟨fun h => operand_stall h r, fun h hnone => ?_, fun v h hv => ?_⟩⟩
    · rw [operand_forward h hr, hnone, Option.getD_none]
    · rw [operand_forward h hr, hv, Option.getD_some]

/-! ## The arbiter (R340 to R344) -/

/-- One check of the arbiter, as what it adds (R344). -/
theorem hazardIf_eq (p : Bool) (r : Nat) (s : State) :
    hazardIf p r s = { s with
      stats.hazardCount := s.stats.hazardCount + if p then 1 else 0
      clock.stall.ex := s.clock.stall.ex + if p then r else 0
      clock.stall.ifetch := s.clock.stall.ifetch + if p then r else 0
      clock.stall.id := s.clock.stall.id + if p then r - 1 else 0
      clock.defer.id := s.clock.defer.id + if p then r else 0 } := by
  cases p <;> rfl

/-- Settles O33: the sum of the checks each policy makes. -/
theorem arbiterRequests : Obligations.ArbiterRequests := by
  intro s i one wb mem ex r
  refine ⟨?_, rfl⟩
  cases hp : s.cfg.hazardPolicy with
  | stall =>
    simp only [arbitrate, hp, hazardIf_eq, r, wb, mem, ex, one, if_true, i]
    cases hazardMatch s.pipe.idEx.inst s.pipe.curWb <;>
      cases hazardMatch s.pipe.idEx.inst s.pipe.memWb <;>
        cases hazardMatch s.pipe.idEx.inst s.pipe.exMem <;> rfl
  | forward =>
    simp only [arbitrate, hp, hazardIf_eq, r, wb, mem, ex, one, i]
    cases hazardMatch s.pipe.idEx.inst s.pipe.memWb && s.pipe.memWb.inst.kind.isLoad <;>
      cases hazardMatch s.pipe.idEx.inst s.pipe.exMem <;> rfl

/-! ## The window (R71, R73, R294) -/

theorem blockWord_eq (s : State) (a : Nat) :
    blockWord s.cfg.memCapacity s.mem a = if a + 4 ≤ s.cfg.memCapacity then
      some (s.readByte (a + 3) ++ s.readByte (a + 2) ++ s.readByte (a + 1) ++ s.readByte a)
      else none := rfl

theorem loadBlock_words (s : State) {k : Nat} (hk : k < s.cfg.windowWords) :
    (loadBlock s).words[k]? =
      some (blockWord s.cfg.memCapacity s.mem (s.pc.toNat + 4 * k)) := by
  simp [loadBlock, hk]

theorem windowFetch_absent {w : Window} (h : w.words[w.cursor]? = some none) :
    windowFetch w = .error (.outOfBounds (BitVec.ofNat 32 (w.base.toNat + 4 * w.cursor))) := by
  simp [windowFetch, List.getD_eq_getElem?_getD, h]

/-- Whether a byte stored to lies among the four of a word (R73). -/
theorem any_dirty_iff (a : Nat) (dirty : List Nat) :
    [a, a + 1, a + 2, a + 3].any (fun x => dirty.contains x) = true ↔
      ∃ x, a ≤ x ∧ x < a + 4 ∧ x ∈ dirty := by
  simp only [List.any_eq_true, List.contains_iff_mem]
  refine exists_congr fun x => ?_
  rw [← and_assoc, and_congr_left_iff]
  intro
  simp only [List.mem_cons, List.not_mem_nil, or_false]
  omega

section
variable {w : Window} {v : Word} (h : w.words[w.cursor]? = some (some v))
include h

theorem windowFetch_stale
    (hs : ∃ x, w.base.toNat + 4 * w.cursor ≤ x ∧ x < w.base.toNat + 4 * w.cursor + 4 ∧ x ∈ w.dirty) :
    windowFetch w = .error (.staleFetch (BitVec.ofNat 32 (w.base.toNat + 4 * w.cursor))) := by
  simp only [windowFetch, List.getD_eq_getElem?_getD, h, Option.getD_some]
  exact if_pos ((any_dirty_iff _ _).mpr hs)

theorem windowFetch_clean
    (hs : ¬∃ x, w.base.toNat + 4 * w.cursor ≤ x ∧ x < w.base.toNat + 4 * w.cursor + 4 ∧ x ∈ w.dirty) :
    windowFetch w = .ok v := by
  simp only [windowFetch, List.getD_eq_getElem?_getD, h, Option.getD_some]
  exact if_neg fun e => hs ((any_dirty_iff _ _).mp e)

end

/-- The first word of a fresh block, in which no byte is marked as stored to (R71). -/
theorem windowFetch_loadBlock {s : State} (hwords : s.cfg.windowWords ≠ 0) :
    windowFetch (loadBlock s) = match blockWord s.cfg.memCapacity s.mem s.pc.toNat with
      | some v => .ok v
      | none => .error (.outOfBounds s.pc) := by
  have hfirst := loadBlock_words s (Nat.pos_of_ne_zero hwords)
  rw [Nat.mul_zero, Nat.add_zero] at hfirst
  cases hword : blockWord s.cfg.memCapacity s.mem s.pc.toNat with
  | none =>
    rw [hword] at hfirst
    rw [windowFetch_absent hfirst]
    simp [loadBlock]
  | some v =>
    rw [hword] at hfirst
    exact windowFetch_clean hfirst (by simp [loadBlock])

/-- Settles O36: a fresh block is the bytes at the pc, a held one moves its cursor only. -/
theorem windowFetchAndStaleness : Obligations.WindowFetchAndStaleness := by
  intro s
  refine ⟨fun hwords hfresh => ?fresh, fun hv hc => ?held, rfl, fun x => mem_joinStored⟩
  case fresh =>
    have hw : fetchWord s = ({ loadBlock s with cursor := 1 }, windowFetch (loadBlock s)) := by
      rw [fetchWord, fetchWindow_fresh hfresh]
      rfl
    rw [hw]
    refine ⟨rfl, rfl, rfl, rfl, ?length, fun k hk => loadBlock_words s hk,
      (windowFetch_loadBlock hwords).trans ?first⟩
    case length => simp [loadBlock]
    case first =>
      rw [blockWord_eq] <;> rfl
  case held =>
    have hw : fetchWord s = ({ s.win with cursor := s.win.cursor + 1 }, windowFetch s.win) := by
      rw [fetchWord, fetchWindow_held hv hc]
    rw [hw]
    exact ⟨rfl, windowFetch_absent, fun v hword =>
      ⟨fun hs => windowFetch_stale hword hs, fun hs => windowFetch_clean hword hs⟩⟩

end Sys2Proof.Machine
end

section
/-! Proofs about the shape of a cycle (53_pipeline_cycle.md R290 to R294): propagation, the bodies and
their commit. -/

namespace Sys2Proof.Machine

/-! ## Propagation (R292) -/

/-- What propagation into one stage makes of the latches. -/
def Latches.refresh (l : Latches) (c : Clock) (p : Stage) : Latches :=
  if 0 < c.defer.get p then l else l.take (decide (0 < c.stall.get p)) p

theorem propagateStage_eq (p : Stage) (s : State) :
    propagateStage p s = { s with pipe := s.pipe.refresh s.clock p } := by
  unfold Latches.refresh
  split
  case isTrue h => exact if_pos (isDeferred_iff.mpr h)
  case isFalse h => exact if_neg fun e => h (isDeferred_iff.mp e)

/-- The two latches of each stage: the working latch is refreshed unless the stage is deferred, the
feed latch cleared if it is neither deferred nor stalled. -/
theorem refresh_stages (c : Clock) :
    (∀ l : Latches, l.refresh c .id = { l with
      curId := if c.defer.id = 0 then l.ifId else l.curId
      ifId := if c.defer.id = 0 ∧ c.stall.id = 0 then Latch.empty else l.ifId }) ∧
    (∀ l : Latches, l.refresh c .ex = { l with
      curEx := if c.defer.ex = 0 then l.idEx else l.curEx
      idEx := if c.defer.ex = 0 ∧ c.stall.ex = 0 then Latch.empty else l.idEx }) ∧
    (∀ l : Latches, l.refresh c .mem = { l with
      curMem := if c.defer.mem = 0 then l.exMem else l.curMem
      exMem := if c.defer.mem = 0 ∧ c.stall.mem = 0 then Latch.empty else l.exMem }) ∧
    (∀ l : Latches, l.refresh c .wb = { l with
      curWb := if c.defer.wb = 0 then l.memWb else l.curWb
      memWb := if c.defer.wb = 0 ∧ c.stall.wb = 0 then Latch.empty else l.memWb }) := by
  simp only [Latches.refresh, StageCounters.get, Nat.pos_iff_ne_zero, ite_not]
  refine ⟨fun l => ?_, fun l => ?_, fun l => ?_, fun l => ?_⟩
  all_goals
    split
    case isFalse hd => simp [hd]
    case isTrue hd => simp [hd, Latches.take]

theorem not_isDeferred (s : State) (p : Stage) :
    (!s.isDeferred p) = decide (s.clock.defer.get p = 0) := by
  simp [State.isDeferred, Nat.pos_iff_ne_zero]

theorem not_isStalled (s : State) (p : Stage) :
    (!s.isStalled p) = decide (s.clock.stall.get p = 0) := by
  simp [State.isStalled, Nat.pos_iff_ne_zero]

/-- Settles O34: the four stages' refreshes touch different latches. -/
theorem propagationLatchByLatch : Obligations.PropagationLatchByLatch := by
  intro s c l
  obtain ⟨hid, hex, hmem, hwb⟩ := refresh_stages c
  simp only [propagate, propagateStage_eq, State.runs, not_isDeferred, not_isStalled]
  rw [hid, hex, hmem, hwb]
  rfl

/-! ## The stages and their commit (R291, R293, R294) -/

/-- Two stages own different fields, so their commits can be exchanged. -/
theorem commitStage_comm (o : Bodies) (s : State) (p q : Stage) :
    commitStage o (commitStage o s p) q = commitStage o (commitStage o s q) p := by
  cases p <;> cases q <;> rfl

/-- Settles O39: exchangeable steps folded in any order give one state. -/
theorem stageOrderDoesNotMatter : Obligations.StageOrderDoesNotMatter := by
  intro order o s hperm
  have hcomm : RightCommutative (commitStage o) := ⟨commitStage_comm o⟩
  exact hperm.foldl_eq s

theorem decodeBody_decodes {p : State} (hrun : p.runs .id = true)
    (hv : p.pipe.curId.valid = true) (hf : p.pipe.curId.fault = none) :
    decodeBody p = exec (decodeWord p.cfg.haltWord p.pipe.curId.word) (p.inPhase .id) := by
  simp [decodeBody, hrun, hv, hf]

theorem executeBody_executes {p : State} {i : Instr} (hrun : p.runs .ex = true)
    (hf : p.pipe.curEx.fault = none) (hi : p.pipe.curEx.inst.instr p.pipe.curEx.word = some i) :
    executeBody p = exec i (p.inPhase .ex) := by
  simp [executeBody, hrun, hf, hi]

theorem memoryBody_executes {p : State} {i : Instr} (hrun : p.runs .mem = true)
    (hi : p.pipe.curMem.inst.instr p.pipe.curMem.word = some i) :
    memoryBody p = exec i (p.inPhase .mem) := by
  simp [memoryBody, hrun, hi]

theorem writeBackBody_executes {p : State} {i : Instr} (hrun : p.runs .wb = true)
    (hi : p.pipe.curWb.inst.instr p.pipe.curWb.word = some i) :
    writeBackBody p = exec i (p.inPhase .wb) := by
  simp [writeBackBody, hrun, hi]

theorem decodeBody_stopped {p : State} (h : p.runs .id = false) : decodeBody p = .next p := by
  simp [decodeBody, h]

theorem executeBody_stopped {p : State} (h : p.runs .ex = false) : executeBody p = .next p := by
  simp [executeBody, h]

theorem memoryBody_stopped {p : State} (h : p.runs .mem = false) : memoryBody p = .next p := by
  simp [memoryBody, h]

theorem writeBackBody_stopped {p : State} (h : p.runs .wb = false) :
    writeBackBody p = .next p := by
  simp [writeBackBody, h]

/-- A running machine's step is the completed commit of its five bodies (R290). -/
theorem step_of_bodies {s w m e d : State} (hdone : s.run.done = false)
    (hw : writeBackBody (propagate (beginCycle s)) = .next w)
    (hm : memoryBody (propagate (beginCycle s)) = .next m)
    (he : executeBody (propagate (beginCycle s)) = .next e)
    (hd : decodeBody { propagate (beginCycle s) with regs := w.regs } = .next d) :
    step s = .next (finishCycle (commit ⟨fetchBody (propagate (beginCycle s)), d, e, m, w⟩
      (propagate (beginCycle s)))) := by
  rw [step_running hdone]
  simp only [cycle, stageBodies, hw, hm, he, hd, andThen_of_next]

/-- Settles O40: the bodies answer, and the cycle is made of them. -/
theorem stepRunsTheInstructionsInFlight : Obligations.StepRunsTheInstructionsInFlight := by
  refine ⟨fun s hdone => ?step, fun p => ?bodies, fun f d e m w p => rfl, decoded_instr⟩
  case step =>
    obtain ⟨w, hw⟩ := writeBackBody_answers (propagate (beginCycle s))
    obtain ⟨m, hm⟩ := memoryBody_answers (propagate (beginCycle s))
    obtain ⟨e, he⟩ := executeBody_answers (propagate (beginCycle s))
    obtain ⟨d, hd⟩ := decodeBody_answers { propagate (beginCycle s) with regs := w.regs }
    exact ⟨d, e, m, w, hw, hm, he, hd, step_of_bodies hdone hw hm he hd⟩
  case bodies =>
    exact ⟨runs_ifetch, runs_id, runs_ex, runs_mem, runs_wb, fetchBody_stopped,
      decodeBody_stopped, executeBody_stopped, memoryBody_stopped, writeBackBody_stopped,
      decodeBody_decodes, fun i => ⟨executeBody_executes, memoryBody_executes,
        writeBackBody_executes⟩⟩

/-! ## The result (R403) -/

/-- Settles O60: the host reads the result byte after a normal end only. -/
theorem resultOutput : Obligations.ResultOutput := by
  refine fun s => ⟨fun hdone hf => ?_, fun h => ?_⟩
  · simp [State.hostOutput, State.resultByte, State.endedNormally, hdone, hf,
      BitVec.extractLsb'_toNat]
  · have hend : s.endedNormally = false := by
      rcases h with hdone | hf
      · simp [State.endedNormally, hdone]
      · simp [State.endedNormally, Option.isNone_eq_false_iff, Option.isSome_iff_ne_none, hf]
    simp [State.hostOutput, State.resultByte, hend]

end Sys2Proof.Machine
end

section
/-! What a step of a running machine can do, said once: the answers of the bodies by the kind of the
instruction in their latch, and the ends of the cycle (53_pipeline_cycle.md R302 to R310, R320). -/

namespace Sys2Proof

/-! ## The instruction a record stands for (R29, R85) -/

theorem instr_eq_none_iff {d : Decoded} {w : Word} : d.instr w = none ↔ d.kind = .NOP := by
  obtain ⟨k⟩ := d
  cases k <;> simp [Decoded.instr]

theorem kind_of_instr {d : Decoded} {w : Word} {i : Instr} (h : d.instr w = some i) :
    i.kind = d.kind := by
  obtain ⟨k⟩ := d
  cases k <;> cases h <;> rfl

theorem eq_halt_of_kind {i : Instr} (h : i.kind = .HALT) : i = .halt := by
  cases i
  case halt => rfl
  all_goals cases h

/-- The destination WB writes for a record: its rd, for the kinds that have one (R82, R310). -/
def Decoded.dest (d : Decoded) : RegIdx :=
  if d.kind.isAlu || d.kind.isJump || d.kind.isLoad then d.rd else 0

theorem rd_of_instr {d : Decoded} {w : Word} {i : Instr} (h : d.instr w = some i) (v : Word) :
    (i.record v).rd = d.dest := by
  obtain ⟨k⟩ := d
  cases k <;> cases h <;> rfl

theorem imm_of_instr {d : Decoded} {w : Word} {i : Instr} (h : d.instr w = some i)
    (hk : d.kind.isLoad = true ∨ d.kind.isStore = true ∨ d.kind.isBranch = true) (v : Word) :
    (i.record v).imm = d.imm := by
  obtain ⟨k⟩ := d
  cases k
  case LB | LH | LW | LBU | LHU | SB | SH | SW | BEQ | BNE | BLT | BGE | BLTU | BGEU =>
    cases h
    rfl
  all_goals simp [Kind.isLoad, Kind.isStore, Kind.isBranch] at hk

/-- The record of an instruction has no rd but its destination (R85). -/
theorem dest_record (i : Instr) (w : Word) : (i.record w).dest = (i.record w).rd := by
  cases i <;> rfl

/-- The width of a load's or store's access (R66). -/
def Kind.width (k : Kind) : Machine.Width :=
  if [Kind.LB, .LBU, .SB].contains k then .byte
  else if [Kind.LH, .LHU, .SH].contains k then .half
  else .word

end Sys2Proof

namespace Sys2Proof.Machine

@[simp] theorem inPhase_wires (s : State) (p : Phase) :
    (s.inPhase p).wires = { s.wires with phase := p } := rfl

@[simp] theorem inPhase_runs (s : State) (p : Phase) (q : Stage) :
    (s.inPhase p).runs q = s.runs q := rfl

theorem writeReg_inPhase (s : State) (r : RegIdx) (v : Word) (p : Phase) :
    (s.writeReg r v).inPhase p = (s.inPhase p).writeReg r v := by
  unfold State.writeReg
  split <;> rfl

theorem exBranch_inPhase (imm : Word) (taken : Bool) (s : State) (p : Phase) :
    (exBranch imm taken s).inPhase p = exBranch imm taken (s.inPhase p) := by
  cases h : s.pred.pValid with
  | true => rw [exBranch_predicted h, exBranch_predicted (s := s.inPhase p) h]; rfl
  | false => rw [exBranch_unpredicted h, exBranch_unpredicted (s := s.inPhase p) h]; rfl

theorem assertBranch_inPhase (target : Word) (s : State) (p : Phase) :
    (assertBranch target s).inPhase p = assertBranch target (s.inPhase p) := by
  rw [assertBranch_eq, assertBranch_eq]
  rfl

/-! ## The answers of the bodies

Each is stated of the state presented in the body's own phase; `commit` does not look at the phase. -/

/-- What WB can answer (R310). -/
inductive WbAnswer (q : State) : State → Prop
  | stopped (hrun : q.runs .wb = false) : WbAnswer q q
  | writes (hrun : q.runs .wb = true) (hk : q.pipe.curWb.inst.kind ≠ .HALT) :
      WbAnswer q (wbWrite q.pipe.curWb.inst.dest q)
  | halts (hrun : q.runs .wb = true) (hk : q.pipe.curWb.inst.kind = .HALT) : WbAnswer q (wbHalt q)

theorem writeBackBody_answer {p w : State} (h : writeBackBody p = .next w) :
    ∃ v, WbAnswer (p.inPhase .wb) v ∧ v = w.inPhase .wb := by
  cases hrun : p.runs .wb with
  | false =>
    obtain rfl := Host.Outcome.next.inj ((writeBackBody_stopped hrun).symm.trans h)
    exact ⟨_, .stopped hrun, rfl⟩
  | true =>
    cases hi : p.pipe.curWb.inst.instr p.pipe.curWb.word with
    | none =>
      have hk := instr_eq_none_iff.mp hi
      have hdest : p.pipe.curWb.inst.dest = 0 := by rw [Decoded.dest, hk]; rfl
      obtain rfl : p = w := by simpa [writeBackBody, hrun, hi, wbBubble, wbNothing] using h
      refine ⟨_, .writes hrun (by simp [hk]), ?_⟩
      rw [inPhase_pipe, hdest, wbWrite_zero]
    | some i =>
      rw [writeBackBody_executes hrun hi] at h
      have hk := kind_of_instr hi
      by_cases hhalt : i = .halt
      · subst hhalt
        obtain rfl := Host.Outcome.next.inj ((exec_wb_halt p).symm.trans h)
        exact ⟨_, .halts hrun hk.symm, rfl⟩
      · rw [exec_wb hhalt 0, rd_of_instr hi] at h
        obtain rfl := Host.Outcome.next.inj h
        have hk' : p.pipe.curWb.inst.kind ≠ .HALT := fun e => hhalt (eq_halt_of_kind (hk.trans e))
        exact ⟨_, .writes hrun hk', (writeReg_inPhase (p.inPhase .wb) _ _ .wb).symm⟩

/-- What MEM can answer: its latch passed on, a load's value, a store's bytes, or the fault of an
access beyond capacity (R308, R374). -/
inductive MemAnswer (q : State) : State → Prop
  | stopped (hrun : q.runs .mem = false) : MemAnswer q q
  | passes (hrun : q.runs .mem = true) (hl : q.pipe.curMem.inst.kind.isLoad = false)
      (hs : q.pipe.curMem.inst.kind.isStore = false) : MemAnswer q (memPass q)
  | loads (hrun : q.runs .mem = true) (hl : q.pipe.curMem.inst.kind.isLoad = true)
      (hfit : q.pipe.curMem.out.toNat + q.pipe.curMem.inst.kind.width.bytes ≤ q.cfg.memCapacity)
      (out : Word) :
      MemAnswer q { q with
        pipe.memWb := { q.pipe.curMem with out := out }
        fw := q.fw.publishMem q.pipe.curMem.inst.dest out }
  | stores (hrun : q.runs .mem = true) (hs : q.pipe.curMem.inst.kind.isStore = true)
      (hfit : q.pipe.curMem.out.toNat + q.pipe.curMem.inst.kind.width.bytes ≤ q.cfg.memCapacity) :
      MemAnswer q { q with
        mem := memPutBytes q.mem q.pipe.curMem.out.toNat
          (storeBytes q.pipe.curMem.b q.pipe.curMem.inst.kind.width)
        pipe.memWb := q.pipe.curMem
        wires.stored := accessAddrs q.pipe.curMem.out q.pipe.curMem.inst.kind.width }
  | faults (hrun : q.runs .mem = true)
      (hk : q.pipe.curMem.inst.kind.isLoad = true ∨ q.pipe.curMem.inst.kind.isStore = true)
      (hb : q.cfg.memCapacity < q.pipe.curMem.out.toNat + q.pipe.curMem.inst.kind.width.bytes) :
      MemAnswer q { q with wires.memStop := some (.outOfBounds q.pipe.curMem.out) }

section
variable {q : State} (hrun : q.runs .mem = true)
include hrun

theorem memLoad_answer (hl : q.pipe.curMem.inst.kind.isLoad = true) (se : Bool) :
    MemAnswer q (memLoad q.pipe.curMem.inst.dest q.pipe.curMem.inst.kind.width se q) := by
  rcases Nat.lt_or_ge q.cfg.memCapacity
    (q.pipe.curMem.out.toNat + q.pipe.curMem.inst.kind.width.bytes) with hb | hfit
  · rw [memLoad_beyond hb]
    exact .faults hrun (.inl hl) hb
  · rw [memLoad_within hfit]
    exact .loads hrun hl hfit _

theorem memStore_answer (hs : q.pipe.curMem.inst.kind.isStore = true) :
    MemAnswer q (memStore q.pipe.curMem.inst.kind.width q) := by
  rcases Nat.lt_or_ge q.cfg.memCapacity
    (q.pipe.curMem.out.toNat + q.pipe.curMem.inst.kind.width.bytes) with hb | hfit
  · rw [memStore_beyond hb]
    exact .faults hrun (.inr hs) hb
  · rw [memStore_within hfit]
    exact .stores hrun hs hfit

end

/-- MEM keeps the phase it is presented in. -/
theorem MemAnswer.inPhase_self {p m : State} (h : MemAnswer (p.inPhase .mem) m) :
    m = m.inPhase .mem := by
  cases h <;> rfl

theorem exec_mem_load_width {i : Instr} (h : i.kind.isLoad = true) (w : Word) (s : State) :
    ∃ se, exec i (s.inPhase .mem) =
      .next (memLoad (i.record w).rd i.kind.width se (s.inPhase .mem)) := by
  cases i
  case lb | lh | lw | lbu | lhu => exact ⟨_, rfl⟩
  all_goals cases h

theorem exec_mem_store_width {i : Instr} (h : i.kind.isStore = true) (s : State) :
    exec i (s.inPhase .mem) = .next (memStore i.kind.width (s.inPhase .mem)) := by
  cases i
  case sb | sh | sw => rfl
  all_goals cases h

theorem memoryBody_answer {p m : State} (h : memoryBody p = .next m) :
    ∃ v, MemAnswer (p.inPhase .mem) v ∧ v = m.inPhase .mem := by
  cases hrun : p.runs .mem with
  | false =>
    obtain rfl := Host.Outcome.next.inj ((memoryBody_stopped hrun).symm.trans h)
    exact ⟨_, .stopped hrun, rfl⟩
  | true =>
    cases hi : p.pipe.curMem.inst.instr p.pipe.curMem.word with
    | none =>
      have hk := instr_eq_none_iff.mp hi
      obtain rfl : memBubble p = m := by simpa [memoryBody, hrun, hi] using h
      exact ⟨_, .passes hrun (by simp [hk]; rfl) (by simp [hk]; rfl), rfl⟩
    | some i =>
      rw [memoryBody_executes hrun hi] at h
      have hk := kind_of_instr hi
      cases hl : i.kind.isLoad with
      | true =>
        obtain ⟨se, hexec⟩ := exec_mem_load_width hl 0 p
        obtain rfl := Host.Outcome.next.inj (hexec.symm.trans h)
        rw [rd_of_instr hi, hk]
        have hanswer := memLoad_answer (q := p.inPhase .mem) hrun (hk ▸ hl) se
        exact ⟨_, hanswer, hanswer.inPhase_self⟩
      | false =>
        cases hs : i.kind.isStore with
        | true =>
          obtain rfl := Host.Outcome.next.inj ((exec_mem_store_width hs p).symm.trans h)
          rw [hk]
          have hanswer := memStore_answer (q := p.inPhase .mem) hrun (hk ▸ hs)
          exact ⟨_, hanswer, hanswer.inPhase_self⟩
        | false =>
          obtain rfl := Host.Outcome.next.inj ((exec_mem_pass hl hs p).symm.trans h)
          exact ⟨_, .passes hrun (hk ▸ hl) (hk ▸ hs), rfl⟩

/-- What EX can answer: a fault is raised, or by the class of its instruction (R305 to R307). -/
inductive ExAnswer (q : State) : State → Prop
  | stopped (hrun : q.runs .ex = false) : ExAnswer q q
  | tagged (hrun : q.runs .ex = true) (f : Fault) (hf : q.pipe.curEx.fault = some f) :
      ExAnswer q (raiseInEx f q)
  | illegal (hrun : q.runs .ex = true) (hf : q.pipe.curEx.fault = none)
      (hk : q.pipe.curEx.inst.kind = .ILLEGAL) :
      ExAnswer q (raiseInEx (.illegalInstruction q.pipe.curEx.pc) q)
  | bubble (hrun : q.runs .ex = true) (hf : q.pipe.curEx.fault = none)
      (hk : q.pipe.curEx.inst.kind = .NOP) : ExAnswer q (exPass 0 q)
  | result (hrun : q.runs .ex = true) (hf : q.pipe.curEx.fault = none)
      (hk : q.pipe.curEx.inst.kind.isAlu = true ∨ q.pipe.curEx.inst.kind.isJump = true)
      (out : Word) : ExAnswer q (exResult q.pipe.curEx.inst.dest out q)
  | access (hrun : q.runs .ex = true) (hf : q.pipe.curEx.fault = none)
      (hk : q.pipe.curEx.inst.kind.isLoad = true ∨ q.pipe.curEx.inst.kind.isStore = true) :
      ExAnswer q (exAddress q.pipe.curEx.inst.imm q)
  | branch (hrun : q.runs .ex = true) (hf : q.pipe.curEx.fault = none)
      (hk : q.pipe.curEx.inst.kind.isBranch = true) (taken : Bool) :
      ExAnswer q (exBranch q.pipe.curEx.inst.imm taken q)
  | halts (hrun : q.runs .ex = true) (hf : q.pipe.curEx.fault = none)
      (hk : q.pipe.curEx.inst.kind = .HALT) : ExAnswer q (exHalt q)

/-- An instruction is of exactly one of the classes that act differently in EX (R82). -/
theorem class_cases (i : Instr) :
    i = .halt ∨ (∃ w, i = .illegal w) ∨ (i.kind.isAlu = true ∨ i.kind.isJump = true) ∨
      (i.kind.isLoad = true ∨ i.kind.isStore = true) ∨ i.kind.isBranch = true := by
  cases i <;> simp [Instr.kind, Kind.isAlu, Kind.isJump, Kind.isLoad, Kind.isStore, Kind.isBranch]

theorem executeBody_answer {p e : State} (h : executeBody p = .next e) :
    ∃ v, ExAnswer (p.inPhase .ex) v ∧ v = e.inPhase .ex := by
  cases hrun : p.runs .ex with
  | false =>
    obtain rfl := Host.Outcome.next.inj ((executeBody_stopped hrun).symm.trans h)
    exact ⟨_, .stopped hrun, rfl⟩
  | true =>
    cases hf : p.pipe.curEx.fault with
    | some f =>
      obtain rfl : raiseInEx f p = e := by simpa [executeBody, hrun, hf] using h
      exact ⟨_, .tagged (q := p.inPhase .ex) hrun f hf, rfl⟩
    | none =>
      cases hi : p.pipe.curEx.inst.instr p.pipe.curEx.word with
      | none =>
        obtain rfl : exBubble p = e := by simpa [executeBody, hrun, hf, hi] using h
        exact ⟨_, .bubble (q := p.inPhase .ex) hrun hf (instr_eq_none_iff.mp hi), rfl⟩
      | some i =>
        rw [executeBody_executes hrun hf hi] at h
        have hk := kind_of_instr hi
        rcases class_cases i with rfl | ⟨w, rfl⟩ | hc | hc | hc
        · obtain rfl := Host.Outcome.next.inj h
          exact ⟨_, .halts (q := p.inPhase .ex) hrun hf hk.symm, rfl⟩
        · obtain rfl := Host.Outcome.next.inj h
          exact ⟨_, .illegal (q := p.inPhase .ex) hrun hf hk.symm, rfl⟩
        · obtain ⟨out, hexec⟩ := exec_ex_result hc 0 p
          obtain rfl := Host.Outcome.next.inj (hexec.symm.trans h)
          rw [rd_of_instr hi]
          exact ⟨_, .result (q := p.inPhase .ex) hrun hf (hk ▸ hc) out, rfl⟩
        · obtain rfl := Host.Outcome.next.inj ((exec_ex_access hc 0 p).symm.trans h)
          rw [hk] at hc
          rw [imm_of_instr hi (hc.imp_right .inl)]
          exact ⟨_, .access (q := p.inPhase .ex) hrun hf hc, rfl⟩
        · obtain ⟨taken, hexec⟩ := exec_ex_branch hc 0 p
          obtain rfl := Host.Outcome.next.inj (hexec.symm.trans h)
          rw [hk] at hc
          rw [imm_of_instr hi (.inr (.inr hc))]
          exact ⟨_, .branch (q := p.inPhase .ex) hrun hf hc taken,
            (exBranch_inPhase _ taken (p.inPhase .ex) .ex).symm⟩

/-- What ID can answer: a bubble, or the decoded instruction's record and its signal (R302 to
R304). -/
inductive IdAnswer (q : State) : State → Prop
  | stopped (hrun : q.runs .id = false) : IdAnswer q q
  | bubble (hrun : q.runs .id = true)
      (hv : (q.pipe.curId.valid && q.pipe.curId.fault.isNone) = false) : IdAnswer q (idBubble q)
  | plain (hrun : q.runs .id = true)
      (hv : (q.pipe.curId.valid && q.pipe.curId.fault.isNone) = true)
      (hb : (decodeWord q.cfg.haltWord q.pipe.curId.word).kind.isBranch = false) :
      IdAnswer q (idDecode (decodeWord q.cfg.haltWord q.pipe.curId.word) q)
  | jump (hrun : q.runs .id = true)
      (hv : (q.pipe.curId.valid && q.pipe.curId.fault.isNone) = true)
      (hj : (decodeWord q.cfg.haltWord q.pipe.curId.word).kind.isBranch = false) (target : Word) :
      IdAnswer q (assertJump target (idDecode (decodeWord q.cfg.haltWord q.pipe.curId.word) q))
  | branch (hrun : q.runs .id = true)
      (hv : (q.pipe.curId.valid && q.pipe.curId.fault.isNone) = true)
      (hb : (decodeWord q.cfg.haltWord q.pipe.curId.word).kind.isBranch = true) (target : Word) :
      IdAnswer q (assertBranch target (idDecode (decodeWord q.cfg.haltWord q.pipe.curId.word) q))

theorem decodeBody_answer {p d : State} (h : decodeBody p = .next d) :
    ∃ v, IdAnswer (p.inPhase .id) v ∧ v = d.inPhase .id := by
  cases hrun : p.runs .id with
  | false =>
    obtain rfl := Host.Outcome.next.inj ((decodeBody_stopped hrun).symm.trans h)
    exact ⟨_, .stopped hrun, rfl⟩
  | true =>
    cases hv : p.pipe.curId.valid && p.pipe.curId.fault.isNone with
    | false =>
      obtain rfl : idBubble p = d := by simpa [decodeBody, hrun, hv] using h
      exact ⟨_, .bubble hrun hv, rfl⟩
    | true =>
      replace h : exec (decodeWord p.cfg.haltWord p.pipe.curId.word) (p.inPhase .id) = .next d := by
        simpa [decodeBody, hrun, hv] using h
      cases hb : (decodeWord p.cfg.haltWord p.pipe.curId.word).kind.isBranch with
      | true =>
        obtain ⟨target, hexec⟩ := exec_id_branch hb p
        obtain rfl := Host.Outcome.next.inj (hexec.symm.trans h)
        exact ⟨_, .branch (q := p.inPhase .id) hrun hv hb target,
          (assertBranch_inPhase target (idDecode _ (p.inPhase .id)) .id).symm⟩
      | false =>
        cases hj : (decodeWord p.cfg.haltWord p.pipe.curId.word).kind.isJump with
        | true =>
          obtain ⟨target, hexec⟩ := exec_id_jump hj p
          obtain rfl := Host.Outcome.next.inj (hexec.symm.trans h)
          exact ⟨_, .jump (q := p.inPhase .id) hrun hv hb target, rfl⟩
        | false =>
          obtain rfl := Host.Outcome.next.inj ((exec_id_plain hj hb p).symm.trans h)
          exact ⟨_, .plain (q := p.inPhase .id) hrun hv hb, rfl⟩

/-! ## The cycle -/

/-- A step of a running machine: the four answers, committed with IF's body and completed. -/
structure StepAnswers (s : State) (o : Bodies) : Prop where
  ifetch : o.ifetch = fetchBody (propagate (beginCycle s))
  wb : WbAnswer ((propagate (beginCycle s)).inPhase .wb) o.wb
  mem : MemAnswer ((propagate (beginCycle s)).inPhase .mem) o.mem
  ex : ExAnswer ((propagate (beginCycle s)).inPhase .ex) o.ex
  id : IdAnswer ({ propagate (beginCycle s) with regs := o.wb.regs }.inPhase .id) o.id

theorem commit_inPhase (f d e m w p : State) :
    commit ⟨f, d, e, m, w⟩ p =
      commit ⟨f, d.inPhase .id, e.inPhase .ex, m.inPhase .mem, w.inPhase .wb⟩ p := rfl

theorem step_answers {s t : State} (hdone : s.run.done = false) (h : step s = .next t) :
    ∃ o, StepAnswers s o ∧ t = finishCycle (commit o (propagate (beginCycle s))) := by
  obtain ⟨u, hu, rfl⟩ := cycle_next ((step_running hdone).symm.trans h)
  obtain ⟨w, m, e, d, hw, hm, he, hd, rfl⟩ := stageBodies_next hu
  obtain ⟨w', hw, rfl⟩ := writeBackBody_answer hw
  obtain ⟨m', hm, rfl⟩ := memoryBody_answer hm
  obtain ⟨e', he, rfl⟩ := executeBody_answer he
  obtain ⟨d', hd, rfl⟩ := decodeBody_answer hd
  rw [commit_inPhase]
  exact ⟨_, ⟨rfl, hw, hm, he, hd⟩, rfl⟩

end Sys2Proof.Machine
end

section
/-! How a cycle ends (53_pipeline_cycle.md R290, R305 to R308, R320), and what it makes of the clock
(50_clock.md, 54_hazard_arbiter.md). -/

namespace Sys2Proof.Machine

/-! ## The ends of a cycle -/

/-- The state the management step starts from (R290: steps 2b and 3). -/
abbrev afterTick (u : State) : State := tickStep (forwardStep u)

/-- The state in which the management step resolves a branch: the memory request and ID's branch
signal are taken (R323, R327). -/
abbrev signalled (u : State) : State := branchSignal (memorySignal (afterTick u))

/-- What a cycle can make of its commit `u`, but for the signals, which it then drops (R290, R320). -/
inductive CycleEnd (u : State) : State → Prop
  | stopped (f : Fault) (hstop : u.stop = some f) : CycleEnd u (endRun f u)
  | retired (hstop : u.stop = none) (f : Option Fault) (hwb : u.wires.wbHalt = some f) :
      CycleEnd u (retireHalt f (afterTick u))
  | halting (hstop : u.stop = none) (hwb : u.wires.wbHalt = none)
      (hh : u.wires.exHalt = true ∨ u.run.halting = true) :
      CycleEnd u { memorySignal (afterTick u) with run.halting := true }
  | broken (hstop : u.stop = none) (hwb : u.wires.wbHalt = none) (hex : u.wires.exHalt = false)
      (hh : u.run.halting = false) (taken : Bool) (target : Word)
      (hb : u.wires.exBranch = some (taken, target)) (hv : u.pred.pValid = false) :
      CycleEnd u (endRun (.controllerInvariant u.pipe.curEx.pc) (signalled u))
  | flushed (hstop : u.stop = none) (hwb : u.wires.wbHalt = none) (hex : u.wires.exHalt = false)
      (hh : u.run.halting = false) (taken : Bool) (target : Word)
      (hb : u.wires.exBranch = some (taken, target)) (p : Predictor)
      (hu : update u.cfg taken u.pred = some p) :
      CycleEnd u (mispredict target { signalled u with pred := p })
  | hit (hstop : u.stop = none) (hwb : u.wires.wbHalt = none) (hex : u.wires.exHalt = false)
      (hh : u.run.halting = false) (taken : Bool) (target : Word)
      (hb : u.wires.exBranch = some (taken, target)) (p : Predictor)
      (hu : update u.cfg taken u.pred = some p) :
      CycleEnd u (hazardStep (redirectFetch (predictHit { signalled u with pred := p })))
  | unresolved (hstop : u.stop = none) (hwb : u.wires.wbHalt = none) (hex : u.wires.exHalt = false)
      (hh : u.run.halting = false) (hb : u.wires.exBranch = none) :
      CycleEnd u (hazardStep (redirectFetch (signalled u)))

@[simp] theorem afterTick_wires (u : State) : (afterTick u).wires = u.wires :=
  (tickStep_wires _).trans (forwardStep_wires u)

@[simp] theorem afterTick_clock (u : State) : (afterTick u).clock = u.clock.tick := by
  simp [tickStep]

theorem manageFlow_end {u : State} (hstop : u.stop = none) (hwb : u.wires.wbHalt = none)
    (hex : u.wires.exHalt = false) (hh : u.run.halting = false) :
    CycleEnd u (manageFlow (memorySignal (afterTick u))) := by
  have hwires : (signalled u).wires.exBranch = u.wires.exBranch := by simp
  cases hb : u.wires.exBranch with
  | none =>
    rw [manageFlow_goesOn (resolve_none (hwires.trans hb))]
    exact .unresolved hstop hwb hex hh hb
  | some b =>
    obtain ⟨taken, target⟩ := b
    cases hu : update u.cfg taken u.pred with
    | none =>
      have hv : u.pred.pValid = false := by
        by_contra hv
        obtain ⟨q, hq, -⟩ := update_pending (c := u.cfg) (Bool.eq_true_of_not_eq_false hv) taken
        rw [hu] at hq
        cases hq
      have hresolve : resolve (signalled u) =
          (endRun (.controllerInvariant u.pipe.curEx.pc) (signalled u), true) := by
        simp [resolve, hb, hu]
      rw [manageFlow_flushed hresolve]
      exact .broken hstop hwb hex hh taken target hb hv
    | some p =>
      have hresolve := resolve_updated (s := signalled u) (hwires.trans hb) (by simpa using hu)
      by_cases hright : taken = (signalled u).pred.pPred
      · rw [if_pos hright] at hresolve
        rw [manageFlow_goesOn hresolve]
        exact .hit hstop hwb hex hh taken target hb p hu
      · rw [if_neg hright] at hresolve
        rw [manageFlow_flushed hresolve]
        exact .flushed hstop hwb hex hh taken target hb p hu

theorem finishCycle_end (u : State) :
    ∃ t, CycleEnd u t ∧ finishCycle u = { t with wires := Wires.idle } := by
  cases hstop : u.stop with
  | some f => exact ⟨_, .stopped f hstop, finishCycle_stop u f hstop⟩
  | none =>
    refine ⟨_, ?_, finishCycle_run u hstop⟩
    cases hwb : u.wires.wbHalt with
    | some f =>
      rw [manage_wbHalt (f := f) (by simpa using hwb)]
      exact .retired hstop f hwb
    | none =>
      rw [manage_running (by simpa using hwb)]
      cases hh : u.wires.exHalt || u.run.halting with
      | true =>
        rw [if_pos (by simpa using hh)]
        exact .halting hstop hwb (by simpa using hh)
      | false =>
        rw [if_neg (by simpa using hh)]
        obtain ⟨hex, hh⟩ : u.wires.exHalt = false ∧ u.run.halting = false := by simpa using hh
        exact manageFlow_end hstop hwb hex hh

/-- What a step of a running machine can do: the answers of its bodies, and an end of the cycle. -/
theorem step_cases {s t : State} (hdone : s.run.done = false) (h : step s = .next t) :
    ∃ o e, StepAnswers s o ∧ CycleEnd (commit o (propagate (beginCycle s))) e ∧
      t = { e with wires := Wires.idle } := by
  obtain ⟨o, ho, rfl⟩ := step_answers hdone h
  obtain ⟨e, he, heq⟩ := finishCycle_end (commit o (propagate (beginCycle s)))
  exact ⟨o, e, ho, he, heq⟩

/-- A running machine has a next state (R290). -/
theorem step_exists {s : State} (hdone : s.run.done = false) : ∃ t, step s = .next t := by
  obtain ⟨hstep, -⟩ := stepRunsTheInstructionsInFlight
  obtain ⟨d, e, m, w, -, -, -, -, h⟩ := hstep s hdone
  exact ⟨_, h⟩

/-! ## What EX signals (R305 to R307) -/

section
variable {q e : State} (h : ExAnswer q e)
include h

theorem ExAnswer.of_memReq (hq : q.wires.memReq = false) (he : e.wires.memReq = true) :
    q.runs .ex = true ∧ q.pipe.curEx.fault = none ∧
      (q.pipe.curEx.inst.kind.isLoad = true ∨ q.pipe.curEx.inst.kind.isStore = true) := by
  cases h
  case access hrun hf hk => exact ⟨hrun, hf, hk⟩
  case branch taken =>
    unfold exBranch at he
    split at he <;> simp [exPass, hq] at he
  all_goals simp [raiseInEx, exPass, exResult, exHalt, hq] at he

theorem ExAnswer.of_exBranch (hq : q.wires.exBranch = none) {b : Bool × Word}
    (he : e.wires.exBranch = some b) :
    q.runs .ex = true ∧ q.pipe.curEx.fault = none ∧
      q.pipe.curEx.inst.kind.isBranch = true ∧ q.pred.pValid = true := by
  cases h
  case branch hrun hf hk taken =>
    cases hp : q.pred.pValid with
    | true => exact ⟨hrun, hf, hk, rfl⟩
    | false => simp [exBranch, hp, hq] at he
  all_goals simp [raiseInEx, exPass, exResult, exAddress, exHalt, hq] at he

theorem ExAnswer.of_exStop (hq : q.wires.exStop = none) {f : Fault}
    (he : e.wires.exStop = some f) :
    q.runs .ex = true ∧ q.pipe.curEx.fault = none ∧
      q.pipe.curEx.inst.kind.isBranch = true ∧ q.pred.pValid = false := by
  cases h
  case branch hrun hf hk taken =>
    cases hp : q.pred.pValid with
    | true => simp [exBranch, hp, hq, exPass] at he
    | false => exact ⟨hrun, hf, hk, rfl⟩
  all_goals simp [raiseInEx, exPass, exResult, exAddress, exHalt, hq] at he

theorem ExAnswer.of_exHalt (hq : q.wires.exHalt = false) (he : e.wires.exHalt = true) :
    q.runs .ex = true ∧ (q.pipe.curEx.fault.isSome = true ∨
      q.pipe.curEx.inst.kind = .ILLEGAL ∨ q.pipe.curEx.inst.kind = .HALT) := by
  cases h
  case tagged hrun f hf => exact ⟨hrun, .inl (by simp [hf])⟩
  case illegal hrun hf hk => exact ⟨hrun, .inr (.inl hk)⟩
  case halts hrun hf hk => exact ⟨hrun, .inr (.inr hk)⟩
  case branch taken =>
    unfold exBranch at he
    split at he <;> simp [exPass, hq] at he
  all_goals simp [exPass, exResult, exAddress, hq] at he

end

/-! Where the class is known, so is EX's answer. -/

theorem kind_class_exclusive (k : Kind) :
    (k.isBranch = true → k.isAlu = false ∧ k.isJump = false ∧ k.isLoad = false ∧
      k.isStore = false ∧ k ≠ .HALT ∧ k ≠ .ILLEGAL ∧ k ≠ .NOP) ∧
    (k.isLoad = true ∨ k.isStore = true → k.isAlu = false ∧ k.isJump = false ∧
      k.isBranch = false ∧ k ≠ .HALT ∧ k ≠ .ILLEGAL ∧ k ≠ .NOP) ∧
    (k.isAlu = true ∨ k.isJump = true → k.isLoad = false ∧ k.isStore = false ∧
      k.isBranch = false ∧ k ≠ .HALT ∧ k ≠ .ILLEGAL ∧ k ≠ .NOP) := by
  cases k <;> decide

section
variable {q e : State} (h : ExAnswer q e) (hrun : q.runs .ex = true)
  (hf : q.pipe.curEx.fault = none)
include h hrun hf

theorem ExAnswer.of_branch (hk : q.pipe.curEx.inst.kind.isBranch = true) :
    ∃ taken, e = exBranch q.pipe.curEx.inst.imm taken q := by
  obtain ⟨hex, -, -⟩ := kind_class_exclusive q.pipe.curEx.inst.kind
  cases h
  case branch taken => exact ⟨taken, rfl⟩
  all_goals simp_all

theorem ExAnswer.of_access
    (hk : q.pipe.curEx.inst.kind.isLoad = true ∨ q.pipe.curEx.inst.kind.isStore = true) :
    e = exAddress q.pipe.curEx.inst.imm q := by
  obtain ⟨-, hex, -⟩ := kind_class_exclusive q.pipe.curEx.inst.kind
  have hex := hex hk
  cases h
  case access => rfl
  all_goals simp_all

theorem ExAnswer.of_illegal (hk : q.pipe.curEx.inst.kind = .ILLEGAL) :
    e = raiseInEx (.illegalInstruction q.pipe.curEx.pc) q := by
  cases h
  case illegal => rfl
  case result hk' _ | access hk' | branch hk' _ =>
    simp [hk, Kind.isAlu, Kind.isJump, Kind.isLoad, Kind.isStore, Kind.isBranch] at hk'
  all_goals simp_all

end

/-! ## The state the bodies are given -/

section
variable (s : State)

@[simp] theorem start_wires : (propagate (beginCycle s)).wires = { Wires.idle with
    idFresh := decide (s.clock.defer.id = 0)
    idRan := decide (s.clock.stall.id = 0) && !s.run.halting } :=
  congrArg State.wires (propagationLatchByLatch (beginCycle s))

theorem start_pipe : (propagate (beginCycle s)).pipe = {
    curId := if s.clock.defer.id = 0 then s.pipe.ifId else s.pipe.curId
    ifId := if s.clock.defer.id = 0 ∧ s.clock.stall.id = 0 then Latch.empty else s.pipe.ifId
    curEx := if s.clock.defer.ex = 0 then s.pipe.idEx else s.pipe.curEx
    idEx := if s.clock.defer.ex = 0 ∧ s.clock.stall.ex = 0 then Latch.empty else s.pipe.idEx
    curMem := if s.clock.defer.mem = 0 then s.pipe.exMem else s.pipe.curMem
    exMem := if s.clock.defer.mem = 0 ∧ s.clock.stall.mem = 0 then Latch.empty else s.pipe.exMem
    curWb := if s.clock.defer.wb = 0 then s.pipe.memWb else s.pipe.curWb
    memWb := if s.clock.defer.wb = 0 ∧ s.clock.stall.wb = 0 then Latch.empty
      else s.pipe.memWb } :=
  congrArg State.pipe (propagationLatchByLatch (beginCycle s))

@[simp] theorem start_runs (p : Stage) : (propagate (beginCycle s)).runs p = s.runs p := by
  cases p <;> simp [State.runs, State.isStalled]

@[simp] theorem beginCycle_stats : (beginCycle s).stats =
    { s.stats with cycleCount := s.stats.cycleCount + 1 } := rfl

end

/-! ## What the arbiter adds (R342 to R344) -/

/-- The counters after hazards of total magnitude `r` in `k` checks. -/
def Clock.hazard (c : Clock) (r k : Nat) : Clock :=
  { c with
    stall.ex := c.stall.ex + r
    stall.ifetch := c.stall.ifetch + r
    stall.id := c.stall.id + (r - k)
    defer.id := c.defer.id + r }

/-- The magnitudes and numbers of checks that hazards in one cycle can have, from a state in which
ID ran or not. -/
structure HazardSum (idRan : Bool) (r k : Nat) : Prop where
  ran : idRan = false → r = 0
  some : 0 < r → 0 < k
  bound : r ≤ 6

theorem HazardSum.zero (idRan : Bool) : HazardSum idRan 0 0 := ⟨fun _ => rfl, nofun, by decide⟩

theorem hazardStep_adds (s : State) : ∃ r k, HazardSum s.wires.idRan r k ∧
    hazardStep s = { s with
      stats.hazardCount := s.stats.hazardCount + k, clock := s.clock.hazard r k } := by
  cases hran : s.wires.idRan with
  | false => exact ⟨0, 0, .zero _, by simp [hazardStep, hran, Clock.hazard]⟩
  | true =>
    have hstep : hazardStep s = arbitrate s := by simp [hazardStep, hran]
    rw [hstep, (arbiterRequests s).1]
    refine ⟨_, _, ⟨nofun, fun hr => ?some, ?bound⟩, rfl⟩
    case some =>
      revert hr
      split <;> omega
    case bound =>
      have one : ∀ b : Bool, (if b then 1 else 0) ≤ 1 := by decide
      have hwb := one (hazardMatch s.pipe.idEx.inst s.pipe.curWb)
      have hmem := one (hazardMatch s.pipe.idEx.inst s.pipe.memWb)
      have hload := one (hazardMatch s.pipe.idEx.inst s.pipe.memWb && s.pipe.memWb.inst.kind.isLoad)
      have hex := one (hazardMatch s.pipe.idEx.inst s.pipe.exMem)
      dsimp only
      split <;> omega

/-! ## The clock at the end of a cycle (R224, R323, R344) -/

/-- The counters after a memory-stall request (R323). -/
def Clock.request (c : Clock) : Clock where
  memBusy := 2
  stall := ⟨c.stall.ifetch + 2, c.stall.id + 2, c.stall.ex + 2, c.stall.mem + 2, c.stall.wb⟩
  defer := c.defer

theorem memorySignal_clock (s : State) :
    (memorySignal s).clock = if s.wires.memReq then s.clock.request else s.clock := by
  unfold memorySignal
  split <;> rfl

theorem CycleEnd.clock_cases {u t : State} (h : CycleEnd u t) :
    (t.run.done = true ∧ (t.clock = u.clock ∨ t.clock = u.clock.tick)) ∨
      ∃ r k, HazardSum u.wires.idRan r k ∧
        t.clock = (if u.wires.memReq then u.clock.tick.request else u.clock.tick).hazard r k := by
  have noHazard : ∀ c : Clock, c = c.hazard 0 0 := fun _ => rfl
  have hsignalled : (signalled u).clock =
      if u.wires.memReq then u.clock.tick.request else u.clock.tick := by
    simp [memorySignal_clock]
  cases h
  case stopped => exact .inl ⟨rfl, .inl rfl⟩
  case retired => exact .inl ⟨rfl, .inr (afterTick_clock u)⟩
  case halting =>
    exact .inr ⟨0, 0, .zero _, (by simpa using hsignalled : _ = _).trans (noHazard _)⟩
  case broken => exact .inr ⟨0, 0, .zero _, hsignalled.trans (noHazard _)⟩
  case flushed => exact .inr ⟨0, 0, .zero _, hsignalled.trans (noHazard _)⟩
  case hit taken target hb p hu =>
    obtain ⟨r, k, hrk, e⟩ :=
      hazardStep_adds (redirectFetch (predictHit { signalled u with pred := p }))
    exact .inr ⟨r, k, by simpa using hrk, by rw [e, ← hsignalled]; simp⟩
  case unresolved =>
    obtain ⟨r, k, hrk, e⟩ := hazardStep_adds (redirectFetch (signalled u))
    exact .inr ⟨r, k, by simpa using hrk, by rw [e, ← hsignalled]; simp⟩

end Sys2Proof.Machine
end

section
/-! Proofs about a step: its frame and counters (53_pipeline_cycle.md, 50_clock.md), and bounded runs
(70_reset_and_hazards.md R411, R412). -/

namespace Sys2Proof.Machine

/-! ## What the end of a cycle leaves alone -/

section
variable {u t : State} (h : CycleEnd u t)
include h

theorem CycleEnd.cfg : t.cfg = u.cfg := by cases h <;> simp [tickStep]
theorem CycleEnd.regs : t.regs = u.regs := by cases h <;> simp [tickStep]
theorem CycleEnd.mem : t.mem = u.mem := by cases h <;> simp [tickStep]
theorem CycleEnd.logicalSize : t.logicalSize = u.logicalSize := by cases h <;> simp [tickStep]

theorem CycleEnd.cycleCount : t.stats.cycleCount = u.stats.cycleCount := by
  have hazard : ∀ x, (hazardStep x).stats.cycleCount = x.stats.cycleCount := fun x => by
    obtain ⟨r, k, -, e⟩ := hazardStep_adds x
    rw [e]
  cases h
  case hit | unresolved => rw [hazard]; simp [predictHit]
  case flushed => simp [mispredict, windowReset]
  all_goals simp

end

/-- Settles O42: the bodies answer, and every end of the cycle keeps what the step must keep. -/
theorem runningMachineAlwaysSteps : Obligations.RunningMachineAlwaysSteps := by
  intro s hdone
  obtain ⟨t, h⟩ := step_exists hdone
  obtain ⟨o, e, -, hend, rfl⟩ := step_cases hdone h
  exact ⟨_, h, hend.cycleCount.trans (by simp), hend.cfg.trans (by simp),
    hend.logicalSize.trans (by simp), rfl⟩

/-! ## The counters (R411, R226) -/

/-- A request and hazards only add, each within its bound (R323, R344). -/
theorem hazard_bounds (c : Clock) (r k : Nat) (p : Stage) :
    c.stall.get p ≤ (c.hazard r k).stall.get p ∧ (c.hazard r k).stall.get p ≤ c.stall.get p + r ∧
      c.defer.get p ≤ (c.hazard r k).defer.get p ∧ (c.hazard r k).defer.get p ≤ c.defer.get p + r ∧
      (c.hazard r k).memBusy = c.memBusy := by
  cases p <;> simp [Clock.hazard, StageCounters.get]

theorem request_bounds (c : Clock) (p : Stage) :
    c.stall.get p ≤ c.request.stall.get p ∧ c.request.stall.get p ≤ c.stall.get p + 2 ∧
      c.request.defer.get p = c.defer.get p ∧ c.request.memBusy = 2 := by
  cases p <;> simp [Clock.request, StageCounters.get]

theorem tick_bounds (c : Clock) (p : Stage) :
    c.tick.stall.get p = c.stall.get p - 1 ∧ c.defer.get p - 1 ≤ c.tick.defer.get p ∧
      c.tick.defer.get p ≤ c.defer.get p ∧ c.tick.memBusy = c.memBusy - 1 := by
  refine ⟨tick_stall_get c p, ?_, ?_, rfl⟩
  all_goals
    rw [tick_defer_get]
    split <;> omega

/-- Settles O43: what the end of a cycle makes of the clock, counter by counter. -/
theorem countersChangeWithinBounds : Obligations.CountersChangeWithinBounds := by
  intro s t p hdone h
  obtain ⟨o, e, -, hend, rfl⟩ := step_cases hdone h
  have hu : (commit o (propagate (beginCycle s))).clock = s.clock := by simp
  have htick := tick_bounds s.clock p
  rcases hend.clock_cases with ⟨-, hc | hc⟩ | ⟨r, k, hrk, hc⟩
  · rw [hc, hu]
    omega
  · rw [hc, hu]
    omega
  · have hr := hrk.bound
    rw [hc, hu]
    split
    · have hreq := request_bounds s.clock.tick p
      have hhaz := hazard_bounds s.clock.tick.request r k p
      omega
    · have hhaz := hazard_bounds s.clock.tick r k p
      omega

/-- A run that has ended normally takes no other step than staying (log 5). -/
theorem step_of_done {s t : State} (hdone : s.run.done = true) (h : step s = .next t) : t = s := by
  rw [step_ended hdone] at h
  split at h
  · exact (Host.Outcome.next.inj h).symm
  · cases h

theorem step_stays {s : State} (hdone : s.run.done = true) (hf : s.run.faulted = none) :
    step s = .next s := by
  rw [step_ended hdone, hf]

theorem step_faults {s : State} {f : Fault} (hdone : s.run.done = true)
    (hf : s.run.faulted = some f) : step s = .fault f := by
  rw [step_ended hdone, hf]

/-! ## The balance of the clock (R226) -/

/-- What a step can do to the clock: a memory request comes from an EX that runs. -/
theorem step_clock_cases {s t : State} (hdone : s.run.done = false) (h : step s = .next t) :
    (t.clock = s.clock ∨ t.clock = s.clock.tick) ∨
      ∃ (req : Bool) (r k : Nat), (req = true → s.clock.stall.ex = 0) ∧ (0 < r → 0 < k) ∧
        t.clock = (if req then s.clock.tick.request else s.clock.tick).hazard r k := by
  obtain ⟨o, e, ho, hend, rfl⟩ := step_cases hdone h
  have hu : (commit o (propagate (beginCycle s))).clock = s.clock := by simp
  rcases hend.clock_cases with ⟨-, hc⟩ | ⟨r, k, hrk, hc⟩
  · exact .inl (hu ▸ hc)
  · refine .inr ⟨_, r, k, fun hreq => ?_, hrk.some, hu ▸ hc⟩
    obtain ⟨hrun, -⟩ := ho.ex.of_memReq (by simp [Wires.idle]) hreq
    have hrun' : s.runs .ex = true := by simpa using hrun
    exact (runs_ex.mp hrun').1

theorem clockInv_tick {s : State} (h : ClockInv s) : ClockInv { s with clock := s.clock.tick } := by
  obtain ⟨hwb, hdif, hdex, hdmem, hdwb, hbusy, hmem, hex, hif, hid, hid'⟩ := h
  simp only [ClockInv, Clock.tick, StageCounters.decay]
  split
  · dsimp only
    omega
  · omega

theorem clockInv_request {s : State} (h : ClockInv s) (hidle : s.clock.memBusy = 0) :
    ClockInv { s with clock := s.clock.request } := by
  obtain ⟨hwb, hdif, hdex, hdmem, hdwb, hbusy, hmem, hex, hif, hid, hid'⟩ := h
  simp only [ClockInv, Clock.request]
  omega

theorem clockInv_hazard {s : State} (h : ClockInv s) {r k : Nat} (hk : 0 < r → 0 < k) :
    ClockInv { s with clock := s.clock.hazard r k } := by
  obtain ⟨hwb, hdif, hdex, hdmem, hdwb, hbusy, hmem, hex, hif, hid, hid'⟩ := h
  simp only [ClockInv, Clock.hazard]
  omega

/-- Settles O53: a tick lowers both sides of the balance, and each request adds to both. -/
theorem stepKeepsClockInv : Obligations.StepKeepsClockInv := by
  intro s t hinv h
  cases hdone : s.run.done with
  | true => rwa [step_of_done hdone h]
  | false =>
    have htick := clockInv_tick hinv
    rcases step_clock_cases hdone h with (hc | hc) | ⟨req, r, k, hreq, hk, hc⟩
    · simpa only [ClockInv, hc] using hinv
    · simpa only [ClockInv, hc] using htick
    · cases req with
      | false =>
        rw [if_neg Bool.false_ne_true] at hc
        simpa only [ClockInv, hc] using clockInv_hazard htick hk
      | true =>
        have hidle : s.clock.tick.memBusy = 0 := by
          obtain ⟨-, -, -, -, -, -, -, hex, -⟩ := hinv
          have hex0 := hreq rfl
          simp only [Clock.tick]
          clear htick
          omega
        rw [if_pos rfl] at hc
        simpa only [ClockInv, hc] using clockInv_hazard (clockInv_request htick hidle) hk

/-! ## Bounded runs (R331, R412) -/

theorem reaches_of_step {s t u : State} (h : step s = .next t) (hr : Reaches t u) :
    Reaches s u := by
  induction hr with
  | here => exact .next (.here s) h
  | next _ hstep ih => exact .next ih hstep

theorem runFuel_zero (s : State) : runFuel 0 s =
    if s.run.done then .ended s else .outOfFuel s := rfl

/-- A bounded run's unfolding, stated of the cycle under another name `c`, so that checking it does
not evaluate a cycle. -/
theorem runFuel_unfold {c : State → Host.Outcome State Fault Refusal} (hc : cycle = c) (n : Nat)
    (s : State) : runFuel (n + 1) s =
      if s.run.done then .ended s
      else match c s with
        | .next t => runFuel n t
        | _ => .stopped s := by
  delta runFuel runFuel._f
  rw [hc] <;> rfl

theorem runFuel_done {n : Nat} {s : State} (hdone : s.run.done = true) : runFuel n s = .ended s := by
  cases n
  · rw [runFuel_zero, if_pos hdone]
  · rw [runFuel_unfold rfl, if_pos hdone]

/-- A running machine's bounded run is a step and the rest. -/
theorem runFuel_succ {n : Nat} {s t : State} (hdone : s.run.done = false) (h : step s = .next t) :
    runFuel (n + 1) s = runFuel n t := by
  rw [runFuel_unfold rfl, if_neg (Bool.eq_false_iff.mp hdone), (step_running hdone).symm.trans h]

theorem runFuel_zero_running {s : State} (hdone : s.run.done = false) :
    runFuel 0 s = .outOfFuel s := by
  rw [runFuel_zero, if_neg (Bool.eq_false_iff.mp hdone)]

theorem runFuel_ended_add {n k : Nat} {s t : State} (h : runFuel n s = .ended t) :
    runFuel (n + k) s = .ended t := by
  induction n generalizing s with
  | zero =>
    cases hdone : s.run.done with
    | true => rw [runFuel_done hdone] at h ⊢; exact h
    | false => exact nomatch (runFuel_zero_running hdone).symm.trans h
  | succ n ih =>
    cases hdone : s.run.done with
    | true => rw [runFuel_done hdone] at h ⊢; exact h
    | false =>
      obtain ⟨u, hu⟩ := step_exists hdone
      rw [runFuel_succ hdone hu] at h
      rw [Nat.add_right_comm, runFuel_succ hdone hu]
      exact ih h

theorem runFuel_ended {n : Nat} {s t : State} (h : runFuel n s = .ended t) :
    t.run.done = true ∧ Reaches s t := by
  induction n generalizing s with
  | zero =>
    cases hdone : s.run.done with
    | true =>
      obtain rfl := RunResult.ended.inj ((runFuel_done hdone).symm.trans h)
      exact ⟨hdone, .here s⟩
    | false => exact nomatch (runFuel_zero_running hdone).symm.trans h
  | succ n ih =>
    cases hdone : s.run.done with
    | true =>
      obtain rfl := RunResult.ended.inj ((runFuel_done hdone).symm.trans h)
      exact ⟨hdone, .here s⟩
    | false =>
      obtain ⟨u, hu⟩ := step_exists hdone
      obtain ⟨ht, hr⟩ := ih ((runFuel_succ hdone hu).symm.trans h)
      exact ⟨ht, reaches_of_step hu hr⟩

theorem runFuel_outOfFuel {n : Nat} {s t : State} (h : runFuel n s = .outOfFuel t) :
    t.run.done = false ∧ Reaches s t ∧ t.stats.cycleCount = s.stats.cycleCount + n := by
  have hdone : s.run.done = false := by
    by_contra hdone
    rw [runFuel_done (Bool.eq_true_of_not_eq_false hdone)] at h
    cases h
  induction n generalizing s with
  | zero =>
    obtain rfl := RunResult.outOfFuel.inj ((runFuel_zero_running hdone).symm.trans h)
    exact ⟨hdone, .here s, rfl⟩
  | succ n ih =>
    obtain ⟨u, hu, hcount, -⟩ := runningMachineAlwaysSteps s hdone
    rw [runFuel_succ hdone hu] at h
    have hdone' : u.run.done = false := by
      by_contra hdone'
      rw [runFuel_done (Bool.eq_true_of_not_eq_false hdone')] at h
      cases h
    obtain ⟨ht, hr, hc⟩ := ih h hdone'
    exact ⟨ht, reaches_of_step hu hr, by omega⟩

/-- Settles O44: by induction on the fuel, a running machine taking one step of it. -/
theorem endOfRunAndFuel : Obligations.EndOfRunAndFuel :=
  ⟨fun _ hdone => ⟨step_stays hdone, fun _ => step_faults hdone⟩,
    fun _ _ _ _ => runFuel_ended_add,
    fun _ _ _ => ⟨runFuel_ended, runFuel_outOfFuel⟩⟩

/-! ## Registers (R23, R310) -/

/-- What WB leaves of the registers: HALT's record names no destination. -/
theorem WbAnswer.regs {q w : State} (h : WbAnswer q w) (hrun : q.runs .wb = true) :
    w.regs = (q.writeReg q.pipe.curWb.inst.dest q.pipe.curWb.out).regs := by
  cases h
  case stopped hstopped => simp [hrun] at hstopped
  case writes => rfl
  case halts hk =>
    have hdest : q.pipe.curWb.inst.dest = 0 := by rw [Decoded.dest, hk]; rfl
    rw [hdest, writeReg_zero]
    rfl

/-- A latch behind EX names no destination but the one WB writes. -/
theorem dest_of_executed {h : Word} {l : Latch} (hl : l.executed h) : l.inst.dest = l.inst.rd := by
  obtain ⟨-, hinst⟩ := hl
  rw [hinst]
  split
  · exact dest_record _ _
  · split
    · exact dest_record _ _
    · rfl

/-- With the clock in balance WB always runs, on what waited for it (R226, R292). -/
theorem step_regs {s t : State} (hclock : ClockInv s) (hdone : s.run.done = false)
    (h : step s = .next t) :
    t.regs = (s.writeReg s.pipe.memWb.inst.dest s.pipe.memWb.out).regs := by
  obtain ⟨o, e, ho, hend, rfl⟩ := step_cases hdone h
  obtain ⟨hwb, -, -, -, hdwb, -⟩ := hclock
  have hcur : (propagate (beginCycle s)).pipe.curWb = s.pipe.memWb := by simp [start_pipe, hdwb]
  have hregs := ho.wb.regs (by simp [runs_wb, hwb])
  rw [inPhase_pipe, hcur] at hregs
  exact hend.regs.trans (hregs.trans (writeReg_regs_congr (by simp) _ _))

/-- Settles O45: the destination is the record's rd in every latch behind EX. -/
theorem onlyWriteBackChangesRegisters : Obligations.OnlyWriteBackChangesRegisters := by
  intro s t hinv hdone h
  obtain ⟨-, -, -, -, -, -, hmemWb, -⟩ := hinv.latch
  rw [step_regs hinv.clock hdone h, dest_of_executed hmemWb]

/-! ## Memory (R66, R308) -/

/-- What MEM leaves of memory: the bytes of a store that fits, and else all of it. -/
theorem MemAnswer.mem_cases {q m : State} (h : MemAnswer q m) :
    m.mem = q.mem ∨ (q.runs .mem = true ∧ q.pipe.curMem.inst.kind.isStore = true ∧
      q.pipe.curMem.out.toNat + q.pipe.curMem.inst.kind.width.bytes ≤ q.cfg.memCapacity ∧
      m.mem = memPutBytes q.mem q.pipe.curMem.out.toNat
        (storeBytes q.pipe.curMem.b q.pipe.curMem.inst.kind.width)) := by
  cases h
  case stores hrun hs hfit => exact .inr ⟨hrun, hs, hfit, rfl⟩
  all_goals exact .inl rfl

/-- What a step leaves of memory, with the clock in balance: MEM acts on what waited for it. -/
theorem step_mem_cases {s t : State} (hclock : ClockInv s) (hdone : s.run.done = false)
    (h : step s = .next t) :
    t.mem = s.mem ∨ (s.clock.stall.mem = 0 ∧ s.pipe.exMem.inst.kind.isStore = true ∧
      s.pipe.exMem.out.toNat + s.pipe.exMem.inst.kind.width.bytes ≤ s.cfg.memCapacity ∧
      t.mem = memPutBytes s.mem s.pipe.exMem.out.toNat
        (storeBytes s.pipe.exMem.b s.pipe.exMem.inst.kind.width)) := by
  obtain ⟨o, e, ho, hend, rfl⟩ := step_cases hdone h
  obtain ⟨-, -, -, hdmem, -⟩ := hclock
  have hcur : (propagate (beginCycle s)).pipe.curMem = s.pipe.exMem := by simp [start_pipe, hdmem]
  have hcases := ho.mem.mem_cases
  simp only [inPhase_runs, start_runs, runs_mem, inPhase_pipe, hcur, inPhase_cfg, inPhase_mem,
    propagate_cfg, beginCycle_cfg, propagate_mem, beginCycle_mem] at hcases
  rwa [show e.mem = o.mem.mem from hend.mem]

theorem Width.bytes_le (n : Width) : n.bytes ≤ 4 := by
  cases n <;> decide

/-- Settles O46: the one case that writes is a store in a MEM that runs, and it writes its width. -/
theorem onlyStoresChangeMemory : Obligations.OnlyStoresChangeMemory := by
  intro s t hinv hdone h ea
  rcases step_mem_cases hinv.clock hdone h with hm | ⟨hrun, hs, -, hm⟩
  · exact ⟨fun _ => hm, fun a _ => congrArg (memByte · a) hm⟩
  · refine ⟨fun hno => ?_, fun a ha => ?_⟩
    · simp [hrun, hs] at hno
    · have hn := s.pipe.exMem.inst.kind.width.bytes_le
      have hout : ¬(ea ≤ a ∧ a < ea + s.pipe.exMem.inst.kind.width.bytes) := by omega
      rw [State.readByte, hm, memByte_storeBytes hinv.memory.1, if_neg hout]
      rfl

end Sys2Proof.Machine
end

section
/-! Proofs that a step keeps memory, the window and the predictor as their rules leave them
(20_memory.md R67, R72, 51_branch_predictor.md R247). -/

namespace Sys2Proof.Machine

/-! ## The fetch redirection, and what the end of a cycle makes of pc, window, latches and predictor -/

/-- A redirection takes over a predictor that is the old one or a consultation's, and then either
redirects the fetch or does not (R325, R326). -/
theorem redirectFetch_cases (s : State) :
    ∃ q, (q = s.pred ∨ ∃ pc taken, predict s.cfg pc s.pred = some (taken, q)) ∧
      (redirectFetch s = { s with pred := q } ∨
        ∃ target, redirectFetch s = redirect target { s with pred := q }) := by
  cases hj : s.wires.idJump with
  | some target => exact ⟨s.pred, .inl rfl, .inr ⟨target, redirectFetch_jump hj⟩⟩
  | none =>
    rw [redirectFetch_consult hj]
    by_cases hidle : s.ctl.branchInFlight = false ∨ s.pred.pValid = true
    · exact ⟨s.pred, .inl rfl, .inl (consult_idle hidle)⟩
    · obtain ⟨hb, hp⟩ : s.ctl.branchInFlight = true ∧ s.pred.pValid = false := by simpa using hidle
      have hq := predict_idle (c := s.cfg) (pc := s.pipe.curId.pc) hp
      refine ⟨_, .inr ⟨_, _, hq⟩, ?_⟩
      rw [consult_predicts hb hq]
      split
      · exact .inr ⟨_, rfl⟩
      · exact .inl rfl

section
variable {u t : State} (h : CycleEnd u t)
include h

/-- The end of a cycle leaves the fetch alone or resets the window with a new pc (R324 to R326). -/
theorem CycleEnd.fetch_cases :
    t.win = u.win ∧ t.pc = u.pc ∨ t.win = { u.win with valid := false } := by
  have hredirect : ∀ s : State, s.win = u.win → s.pc = u.pc →
      (redirectFetch s).win = u.win ∧ (redirectFetch s).pc = u.pc ∨
        (redirectFetch s).win = { u.win with valid := false } := fun s hwin hpc => by
    obtain ⟨q, -, e | ⟨target, e⟩⟩ := redirectFetch_cases s
    · exact .inl (by rw [e]; exact ⟨hwin, hpc⟩)
    · exact .inr (by rw [e, ← hwin]; rfl)
  cases h
  case hit | unresolved =>
    rw [hazardStep_win, hazardStep_pc]
    exact hredirect _ (by simp) (by simp)
  case flushed => exact .inr (by simp [mispredict, windowReset])
  all_goals exact .inl (by simp)

/-- The end of a cycle keeps the latches, but for those a redirection or a flush clears (R324 to
R326). -/
theorem CycleEnd.pipe_cases :
    t.pipe = u.pipe ∨ t.pipe = { u.pipe with ifId := .empty } ∨
      t.pipe = { u.pipe with ifId := .empty, curId := .empty, idEx := .empty } := by
  have hredirect : ∀ s : State, s.pipe = u.pipe → (redirectFetch s).pipe = u.pipe ∨
      (redirectFetch s).pipe = { u.pipe with ifId := .empty } := fun s hpipe => by
    obtain ⟨q, -, e | ⟨target, e⟩⟩ := redirectFetch_cases s
    · exact .inl (by rw [e]; exact hpipe)
    · exact .inr (by rw [e, ← hpipe]; rfl)
  cases h
  case hit | unresolved =>
    rw [hazardStep_pipe]
    exact (hredirect _ (by simp)).imp_right .inl
  case flushed => exact .inr (.inr (by simp [mispredict, windowReset]))
  all_goals exact .inl (by simp)

/-- What updates and predictions keep, the end of a cycle keeps of the predictor. -/
theorem CycleEnd.pred_keeps {P : Predictor → Prop} (hu : P u.pred)
    (hupdate : ∀ p q taken, P p → update u.cfg taken p = some q → P q)
    (hpredict : ∀ p q pc taken, P p → predict u.cfg pc p = some (taken, q) → P q) : P t.pred := by
  have hredirect : ∀ s : State, s.cfg = u.cfg → P s.pred → P (redirectFetch s).pred :=
    fun s hcfg hs => by
      obtain ⟨q, hq, e⟩ := redirectFetch_cases s
      have hPq : P q := by
        rcases hq with rfl | ⟨pc, taken, hq⟩
        · exact hs
        · exact hpredict _ _ pc taken hs (hcfg ▸ hq)
      rcases e with e | ⟨target, e⟩ <;> exact e ▸ hPq
  cases h
  case hit taken target hb p hp =>
    rw [hazardStep_pred]
    exact hredirect _ (by simp) (hupdate _ _ taken hu hp)
  case unresolved =>
    rw [hazardStep_pred]
    exact hredirect _ (by simp) (by simpa using hu)
  case flushed taken target hb p hp => exact hupdate _ _ taken hu hp
  all_goals simpa using hu

end

/-! ## The predictor (R247) -/

theorem addrIdx_lt (c : Config) (pc : Word) : addrIdx c pc < 2 ^ c.idxBits :=
  Nat.mod_lt _ (Nat.two_pow_pos _)

theorem shiftHistory_lt (c : Config) (h : Nat) (taken : Bool) : shiftHistory c h taken < 2 ^ c.histLen :=
  Nat.mod_lt _ (Nat.two_pow_pos _)

theorem two_pow_idxBits_le_bhtSize (c : Config) : 2 ^ c.idxBits ≤ bhtSize c := by
  unfold bhtSize
  split
  · exact Nat.pow_le_pow_right (by decide) (Nat.le_add_right _ _)
  · exact Nat.le_refl _

theorem tableGet_mem {α : Type} {d : α} {l : List (Nat × α)} {k : Nat} (h : tableGet d l k ≠ d) :
    (k, tableGet d l k) ∈ l := by
  induction l with
  | nil => exact absurd rfl h
  | cons x rest ih =>
    unfold tableGet at h ⊢
    split
    · next hk => simp [hk]
    · next hk =>
      rw [if_neg hk] at h
      exact List.mem_cons_of_mem _ (ih h)

/-- A history in range gives a counter index in range (R245). -/
theorem selectCounter_lt {c : Config} {p : Predictor} (hp : ∀ e ∈ p.pht, e.2 < 2 ^ c.histLen)
    (pc : Word) : selectCounter c p pc < bhtSize c := by
  have haddr := addrIdx_lt c pc
  have hsize := two_pow_idxBits_le_bhtSize c
  unfold selectCounter
  dsimp only
  split
  case h_4 hmode =>
    have hhist : p.history (addrIdx c pc) < 2 ^ c.histLen := by
      by_cases h0 : p.history (addrIdx c pc) = 0
      · rw [h0]
        exact Nat.two_pow_pos _
      · exact hp _ (tableGet_mem h0)
    calc addrIdx c pc * 2 ^ c.histLen + p.history (addrIdx c pc)
        < (addrIdx c pc + 1) * 2 ^ c.histLen := by rw [Nat.succ_mul]; omega
      _ ≤ 2 ^ c.idxBits * 2 ^ c.histLen := Nat.mul_le_mul_right _ haddr
      _ = bhtSize c := by rw [bhtSize, hmode, Nat.pow_add]
  all_goals omega

theorem predictorInv_predict {s : State} {q : Predictor} {pc : Word} {taken : Bool}
    (h : PredictorInv s) (hq : predict s.cfg pc s.pred = some (taken, q)) :
    PredictorInv { s with pred := q } := by
  obtain ⟨hbht, hbhtLt, hpht, hphtLt, -, -⟩ := h
  unfold predict at hq
  split at hq
  · cases hq
  · cases hq
    exact ⟨hbht, hbhtLt, hpht, hphtLt, addrIdx_lt _ _,
      selectCounter_lt (fun e he => (hphtLt e he).2) pc⟩

theorem predictorInv_update {s : State} {q : Predictor} {taken : Bool} (h : PredictorInv s)
    (hq : update s.cfg taken s.pred = some q) : PredictorInv { s with pred := q } := by
  obtain ⟨hbht, hbhtLt, hpht, hphtLt, haddr, hctr⟩ := h
  have hbht' := fun v => tableWf_put 0#2 s.pred.pCtr v hbht
  have hbhtLt' : ∀ v, ∀ e ∈ tablePut 0#2 s.pred.bht s.pred.pCtr v, e.1 < bhtSize s.cfg :=
    fun v e he => (mem_tablePut _ he).elim (hbhtLt e) (fun e' => e' ▸ hctr)
  unfold update at hq
  split at hq
  · obtain rfl := Option.some.inj hq
    cases hmode : s.cfg.predictor with
    | alwaysTaken => exact ⟨hbht, hbhtLt, hpht, hphtLt, haddr, hctr⟩
    | alwaysNotTaken => exact ⟨hbht, hbhtLt, hpht, hphtLt, haddr, hctr⟩
    | oneLevel => exact ⟨hbht' _, hbhtLt' _, hpht, hphtLt, haddr, hctr⟩
    | twoLevel =>
      refine ⟨hbht' _, hbhtLt' _, tableWf_put 0 _ _ hpht, fun e he => ?_, haddr, hctr⟩
      rcases mem_tablePut _ he with he | rfl
      · exact hphtLt e he
      · exact ⟨haddr, shiftHistory_lt _ _ _⟩
  · cases hq

/-! ## The window (R37, R71, R72) -/

/-- What IF can answer (R301). -/
inductive FetchAnswer (p : State) : State → Prop
  | stopped (hrun : p.runs .ifetch = false) : FetchAnswer p p
  | misaligned (hrun : p.runs .ifetch = true) (hpc : p.pc.toNat % 4 ≠ 0) :
      FetchAnswer p { p with
        pipe.ifId := { Latch.empty with
          pc := p.pc, valid := true, fault := some (.misalignedFetch p.pc) }
        pc := p.pc + 4#32 }
  | fetches (hrun : p.runs .ifetch = true) (hpc : p.pc.toNat % 4 = 0) (word : Word)
      (fault : Option Fault) (hf : carriedFault fault = true) :
      FetchAnswer p { p with
        pipe.ifId := { Latch.empty with pc := p.pc, valid := true, word, fault }
        win := (fetchWord p).1
        pc := p.pc + 4#32 }

theorem carriedFault_windowFetch {w : Window} {f : Fault} (h : windowFetch w = .error f) :
    carriedFault (some f) = true := by
  unfold windowFetch at h
  dsimp only at h
  split at h
  · cases h
    rfl
  · split at h
    · cases h
      rfl
    · cases h

theorem fetchBody_answer (p : State) : FetchAnswer p (fetchBody p) := by
  cases hrun : p.runs .ifetch with
  | false =>
    rw [fetchBody_stopped hrun]
    exact .stopped hrun
  | true =>
    by_cases hpc : p.pc.toNat % 4 = 0
    · cases hw : (fetchWord p).2 with
      | ok v =>
        rw [fetchBody_fetched hrun hpc hw]
        exact .fetches hrun hpc v none rfl
      | error f =>
        rw [fetchBody_faulted hrun hpc hw]
        exact .fetches hrun hpc 0 (some f) (carriedFault_windowFetch hw)
    · rw [fetchBody_misaligned hrun hpc]
      exact .misaligned hrun hpc

theorem pc_add_four_aligned {pc : Word} (h : pc.toNat % 4 = 0) : (pc + 4#32).toNat % 4 = 0 := by
  bv_omega

theorem cursor_succ (base : Word) (k : Nat) :
    base + BitVec.ofNat 32 (4 * (k + 1)) = base + BitVec.ofNat 32 (4 * k) + 4#32 := by
  rw [Nat.mul_succ, BitVec.ofNat_add, BitVec.add_assoc]

/-- A fetch moves the cursor and the pc together, in a fresh block or in the one held (R71). -/
theorem windowInv_fetch {p : State} (hwords : 1 ≤ p.cfg.windowWords)
    (hpc : p.pc.toNat % 4 = 0) (h : WindowInv p) :
    WindowInv { p with win := (fetchWord p).1, pc := p.pc + 4#32 } := by
  obtain ⟨hlen, hcur, hdirty, hdirtyLt, hvalid⟩ := h
  by_cases hfresh : p.win.valid = false ∨ p.win.cursor = p.cfg.windowWords
  · rw [fetchWord, fetchWindow_fresh hfresh]
    exact ⟨by simp [loadBlock], hwords, rfl, nofun,
      fun _ => ⟨pc_add_four_aligned hpc, hpc, rfl⟩⟩
  · obtain ⟨hv, hne⟩ : p.win.valid = true ∧ p.win.cursor ≠ p.cfg.windowWords := by
      simpa using hfresh
    obtain ⟨-, hbase, hat⟩ := hvalid hv
    rw [fetchWord, fetchWindow_held hv (Nat.lt_of_le_of_ne hcur hne)]
    refine ⟨hlen, Nat.lt_of_le_of_ne hcur hne, hdirty, hdirtyLt,
      fun _ => ⟨pc_add_four_aligned hpc, hbase, ?_⟩⟩
    dsimp only
    rw [cursor_succ, hat]

theorem FetchAnswer.windowInv {p f : State} (hf : FetchAnswer p f)
    (hwords : 1 ≤ p.cfg.windowWords) (h : WindowInv p) : WindowInv f := by
  cases hf
  case stopped => exact h
  case misaligned hpc =>
    obtain ⟨hlen, hcur, hdirty, hdirtyLt, hvalid⟩ := h
    exact ⟨hlen, hcur, hdirty, hdirtyLt, fun hv => absurd (hvalid hv).1 hpc⟩
  case fetches hpc word fault hf => exact windowInv_fetch hwords hpc h

/-- The bytes MEM marks as stored to lie within capacity (R61). -/
theorem MemAnswer.stored_lt {q m : State} (h : MemAnswer q m) (hq : q.wires.stored = []) :
    ∀ a ∈ m.wires.stored, a < q.cfg.memCapacity := by
  intro a ha
  cases h
  case stores hrun hs hfit =>
    have hmem := mem_accessAddrs.mp ha
    omega
  all_goals simp [hq] at ha

/-- Stores within capacity keep the dirty set as it must be (R61). -/
theorem windowInv_stored {s : State} (h : WindowInv s) {stored : List Nat}
    (hs : ∀ a ∈ stored, a < s.cfg.memCapacity) :
    WindowInv { s with win.dirty := stored.foldl (fun d a => setInsert a d) s.win.dirty } := by
  obtain ⟨hlen, hcur, hdirty, hdirtyLt, hvalid⟩ := h
  refine ⟨hlen, hcur, setWf_foldl_setInsert _ _ hdirty, fun a ha => ?_, hvalid⟩
  rcases (mem_foldl_setInsert _ _).mp ha with ha | ha
  · exact hs a ha
  · exact hdirtyLt a ha

section
variable {u t : State} (h : CycleEnd u t)
include h

theorem CycleEnd.windowInv (hu : WindowInv u) : WindowInv t := by
  have hcfg := h.cfg
  rcases h.fetch_cases with ⟨hwin, hpc⟩ | hwin
  · simpa only [WindowInv, hcfg, hwin, hpc] using hu
  · obtain ⟨hlen, hcur, hdirty, hdirtyLt, -⟩ := hu
    rw [WindowInv, hcfg, hwin]
    exact ⟨hlen, hcur, hdirty, hdirtyLt, nofun⟩

theorem CycleEnd.predictorInv (hu : PredictorInv u) : PredictorInv t := by
  have hcfg := h.cfg
  have hpred := h.pred_keeps (P := fun q => PredictorInv { u with pred := q }) hu
    (fun p q taken hp hq => predictorInv_update (s := { u with pred := p }) hp hq)
    (fun p q pc taken hp hq => predictorInv_predict (s := { u with pred := p }) hp hq)
  simpa only [PredictorInv, hcfg] using hpred

end

/-! ## Memory (R67) -/

theorem MemAnswer.memoryInv {q m : State} (h : MemAnswer q m) (hq : MemoryInv q) :
    Memory.wf m.mem = true ∧ ∀ c ∈ m.mem, c.1 < q.cfg.memCapacity := by
  obtain ⟨hwf, hlt⟩ := hq
  rcases h.mem_cases with e | ⟨-, -, hfit, e⟩
  · rw [e]
    exact ⟨hwf, hlt⟩
  · rw [e]
    refine ⟨memory_wf_putBytes hwf _ _, fun c hc => ?_⟩
    rcases mem_putBytes hc with hc | ⟨-, hc⟩
    · exact hlt c hc
    · rw [storeBytes_length] at hc
      omega

/-! ## The step -/

theorem windowWords_pos {c : Config} (h : c.wf = true) : 1 ≤ c.windowWords := by
  simp only [Config.wf, Bool.and_eq_true, decide_eq_true_eq] at h
  exact h.2

theorem memoryInv_step {s t : State} (hinv : MemoryInv s) (hdone : s.run.done = false)
    (h : step s = .next t) : MemoryInv t := by
  obtain ⟨o, e, ho, hend, rfl⟩ := step_cases hdone h
  have hmem := ho.mem.memoryInv (by simpa [MemoryInv] using hinv)
  have hcfg := hend.cfg
  simpa [MemoryInv, hend.mem, hcfg] using hmem

theorem windowInv_step {s t : State} (hcfg : s.cfg.wf = true) (hinv : WindowInv s)
    (hdone : s.run.done = false) (h : step s = .next t) : WindowInv t := by
  obtain ⟨o, e, ho, hend, rfl⟩ := step_cases hdone h
  have hfetch := (fetchBody_answer (propagate (beginCycle s))).windowInv
    (by simpa using windowWords_pos hcfg) (by simpa [WindowInv] using hinv)
  have hstored := ho.mem.stored_lt (by simp [Wires.idle])
  have hcommit := windowInv_stored hfetch (by simpa using hstored)
  exact hend.windowInv (by simpa [WindowInv, commit_win, ho.ifetch] using hcommit)

theorem predictorInv_step {s t : State} (hinv : PredictorInv s) (hdone : s.run.done = false)
    (h : step s = .next t) : PredictorInv t := by
  obtain ⟨o, e, ho, hend, rfl⟩ := step_cases hdone h
  exact hend.predictorInv (by simpa [PredictorInv] using hinv)

/-- Settles O54: each of the three by its own step lemma. -/
theorem stepKeepsMemoryWindowAndPredictorInv :
    Obligations.StepKeepsMemoryWindowAndPredictorInv := by
  intro s t hcfg hmem hwin hpred h
  cases hdone : s.run.done with
  | true =>
    rw [step_of_done hdone h]
    exact ⟨hmem, hwin, hpred⟩
  | false =>
    exact ⟨memoryInv_step hmem hdone h, windowInv_step hcfg hwin hdone h,
      predictorInv_step hpred hdone h⟩

end Sys2Proof.Machine
end

section
/-! Proofs that a step keeps the machine's invariant: the latches, the prediction protocol and the
run (10_state.md R26 to R36, 53_pipeline_cycle.md R302 to R328). -/

namespace Sys2Proof.Machine

/-! ## The latches (R27 to R31) -/

theorem fetched_empty : Latch.fetched Latch.empty := ⟨rfl, rfl⟩
theorem decoded_empty (h : Word) : Latch.decoded h Latch.empty := ⟨rfl, rfl⟩
theorem executed_empty (h : Word) : Latch.executed h Latch.empty := ⟨rfl, rfl⟩

/-- An untagged latch passes EX as ID made it (R306). -/
theorem executed_of_decoded {h : Word} {l : Latch} (hl : l.decoded h) (hf : l.fault = none) :
    l.executed h := by
  obtain ⟨hc, hinst⟩ := hl
  exact ⟨hc, by simpa [hf] using hinst⟩

/-- A latch whose record is a branch's is valid and untagged (R302). -/
theorem fault_of_branch {h : Word} {l : Latch} (hl : l.decoded h)
    (hb : l.inst.kind.isBranch = true) : l.fault = none := by
  obtain ⟨-, hinst⟩ := hl
  split at hinst
  · next hv => simpa using (Bool.and_eq_true_iff.mp hv).2
  · rw [hinst] at hb
    cases hb

/-- Propagation moves latches to their working places (R292). -/
theorem latchInv_start {s : State} (h : LatchInv s) : LatchInv (propagate (beginCycle s)) := by
  obtain ⟨hifId, hcurId, hidEx, hcurEx, hexMem, hcurMem, hmemWb, hcurWb⟩ := h
  have pick : ∀ {P : Latch → Prop} {c : Prop} [Decidable c] {a b : Latch}, P a → P b →
      P (if c then a else b) := fun ha hb => by
    split
    · exact ha
    · exact hb
  rw [LatchInv, start_pipe, propagate_cfg]
  exact ⟨pick fetched_empty hifId, pick hifId hcurId, pick (decoded_empty _) hidEx,
    pick hidEx hcurEx, pick (executed_empty _) hexMem, pick hexMem hcurMem,
    pick (executed_empty _) hmemWb, pick hmemWb hcurWb⟩

theorem FetchAnswer.fetched {p f : State} (h : FetchAnswer p f) (hp : Latch.fetched p.pipe.ifId) :
    Latch.fetched f.pipe.ifId := by
  cases h
  case stopped => exact hp
  case misaligned => exact ⟨rfl, rfl⟩
  case fetches hf => exact ⟨rfl, hf⟩

/-- What ID that runs leaves in ID_EX: the latch it worked on, with the record of its word or a
bubble's (R302). -/
theorem IdAnswer.latch {q d : State} (h : IdAnswer q d) (hrun : q.runs .id = true) :
    d.pipe.idEx.word = q.pipe.curId.word ∧ d.pipe.idEx.valid = q.pipe.curId.valid ∧
      d.pipe.idEx.fault = q.pipe.curId.fault ∧ d.pipe.idEx.pc = q.pipe.curId.pc ∧
      d.pipe.idEx.inst = if q.pipe.curId.valid && q.pipe.curId.fault.isNone then
        (decodeWord q.cfg.haltWord q.pipe.curId.word).record q.pipe.curId.word
      else Decoded.nop := by
  cases h
  case stopped hstopped => exact absurd hstopped (by simp [hrun])
  case bubble hv => exact ⟨rfl, rfl, rfl, rfl, by simp [hv, idBubble]⟩
  case plain hv hb => exact ⟨rfl, rfl, rfl, rfl, by simp [hv, idDecode]⟩
  case jump hv hb target => exact ⟨rfl, rfl, rfl, rfl, by simp [hv, idDecode, assertJump]⟩
  case branch hv hb target =>
    rw [assertBranch_eq]
    exact ⟨rfl, rfl, rfl, rfl, by simp [hv, idDecode]⟩

theorem IdAnswer.decoded {q d : State} (h : IdAnswer q d)
    (hidEx : Latch.decoded q.cfg.haltWord q.pipe.idEx) (hcurId : Latch.fetched q.pipe.curId) :
    Latch.decoded q.cfg.haltWord d.pipe.idEx := by
  cases hrun : q.runs .id with
  | false =>
    cases h
    case stopped => exact hidEx
    all_goals simp_all
  | true =>
    obtain ⟨hword, hvalid, hfault, -, hinst⟩ := h.latch hrun
    rw [Latch.decoded, hword, hvalid, hfault]
    exact ⟨hcurId.2, hinst⟩

theorem ExAnswer.executed {q e : State} (h : ExAnswer q e)
    (hexMem : Latch.executed q.cfg.haltWord q.pipe.exMem)
    (hcurEx : Latch.decoded q.cfg.haltWord q.pipe.curEx) :
    Latch.executed q.cfg.haltWord e.pipe.exMem := by
  cases h
  case stopped => exact hexMem
  case tagged f hf => exact ⟨(congrArg carriedFault hf).symm.trans hcurEx.1, rfl⟩
  case illegal => exact ⟨rfl, rfl⟩
  case branch hrun hf hk taken =>
    cases hp : q.pred.pValid with
    | true =>
      rw [exBranch_predicted hp]
      exact executed_of_decoded hcurEx hf
    | false =>
      rw [exBranch_unpredicted hp]
      exact hexMem
  case bubble hf _ | result hf _ _ | access hf _ | halts hf _ => exact executed_of_decoded hcurEx hf

/-- What MEM leaves in MEM_WB: its latch, with a load's value, or nothing new (R308, R374). -/
theorem MemAnswer.latch_cases {q m : State} (h : MemAnswer q m) :
    m.pipe.memWb = q.pipe.memWb ∨ ∃ out, m.pipe.memWb = { q.pipe.curMem with out := out } := by
  cases h
  case stopped => exact .inl rfl
  case passes => exact .inr ⟨_, rfl⟩
  case loads out => exact .inr ⟨out, rfl⟩
  case stores => exact .inr ⟨_, rfl⟩
  case faults => exact .inl rfl

theorem MemAnswer.executed {q m : State} (h : MemAnswer q m)
    (hmemWb : Latch.executed q.cfg.haltWord q.pipe.memWb)
    (hcurMem : Latch.executed q.cfg.haltWord q.pipe.curMem) :
    Latch.executed q.cfg.haltWord m.pipe.memWb := by
  rcases h.latch_cases with e | ⟨out, e⟩ <;> rw [e]
  · exact hmemWb
  · exact hcurMem

/-- The bodies leave every latch as its place allows (R301 to R308). -/
theorem StepAnswers.latchInv {s : State} {o : Bodies} (ho : StepAnswers s o) (h : LatchInv s) :
    LatchInv (commit o (propagate (beginCycle s))) := by
  have hstart := latchInv_start h
  obtain ⟨hfetch, hwb, hmem, hex, hid⟩ := ho
  generalize propagate (beginCycle s) = p at *
  obtain ⟨hifId, hcurId, hidEx, hcurEx, hexMem, hcurMem, hmemWb, hcurWb⟩ := hstart
  have hf := (fetchBody_answer p).fetched hifId
  rw [← hfetch] at hf
  exact ⟨hf, hcurId, hid.decoded hidEx hcurId, hcurEx, hex.executed hexMem hcurEx, hcurMem,
    hmem.executed hmemWb hcurMem, hcurWb⟩

theorem CycleEnd.latchInv {u t : State} (h : CycleEnd u t) (hu : LatchInv u) : LatchInv t := by
  obtain ⟨hifId, hcurId, hidEx, hrest⟩ := hu
  rw [LatchInv, h.cfg]
  rcases h.pipe_cases with e | e | e <;> rw [e]
  · exact ⟨hifId, hcurId, hidEx, hrest⟩
  · exact ⟨fetched_empty, hcurId, hidEx, hrest⟩
  · exact ⟨fetched_empty, fetched_empty, decoded_empty _, hrest⟩

/-! ## Where the balance of the clock lets latches move (R226, R292) -/

section
variable {s : State} (h : ClockInv s)
include h

theorem start_curEx : (propagate (beginCycle s)).pipe.curEx = s.pipe.idEx := by
  obtain ⟨-, -, hdex, -⟩ := h
  simp [start_pipe, hdex]

theorem start_curMem : (propagate (beginCycle s)).pipe.curMem = s.pipe.exMem := by
  obtain ⟨-, -, -, hdmem, -⟩ := h
  simp [start_pipe, hdmem]

theorem start_curWb : (propagate (beginCycle s)).pipe.curWb = s.pipe.memWb := by
  obtain ⟨-, -, -, -, hdwb, -⟩ := h
  simp [start_pipe, hdwb]

end

/-! ## The run (R36, R370, R376) -/

theorem ExAnswer.resolves {q e : State} (h : ExAnswer q e) (hrun : q.runs .ex = true)
    (hf : q.pipe.curEx.fault = none) (hk : q.pipe.curEx.inst.kind.isBranch = true)
    (hp : q.pred.pValid = true) : ∃ b, e.wires.exBranch = some b := by
  obtain ⟨taken, rfl⟩ := h.of_branch hrun hf hk
  rw [exBranch_predicted hp]
  exact ⟨_, rfl⟩

theorem MemAnswer.of_memStop {q m : State} (h : MemAnswer q m) (hq : q.wires.memStop = none)
    {f : Fault} (hm : m.wires.memStop = some f) :
    q.runs .mem = true ∧
      (q.pipe.curMem.inst.kind.isLoad = true ∨ q.pipe.curMem.inst.kind.isStore = true) ∧
      f = .outOfBounds q.pipe.curMem.out := by
  cases h
  case faults hrun hk hb => exact ⟨hrun, hk, (Option.some.inj hm).symm⟩
  all_goals simp [hq] at hm

theorem WbAnswer.of_wbHalt {q w : State} (h : WbAnswer q w) (hq : q.wires.wbHalt = none)
    {f : Option Fault} (hw : w.wires.wbHalt = some f) :
    q.runs .wb = true ∧ q.pipe.curWb.inst.kind = .HALT ∧ f = q.pipe.curWb.fault := by
  cases h
  case halts hrun hk => exact ⟨hrun, hk, (Option.some.inj hw).symm⟩
  all_goals simp [hq] at hw

theorem stop_cases {u : State} {f : Fault} (h : u.stop = some f) :
    u.wires.memStop = some f ∨ u.wires.memStop = none ∧ u.wires.exStop = some f := by
  unfold State.stop at h
  split at h
  · next hm => exact .inl (hm.trans h)
  · next hm => exact .inr ⟨hm, h⟩

/-- With the protocol kept, EX meets no branch without a prediction (R326, R376). -/
theorem Inv.branch_predicted {s : State} (h : Inv s) (hdone : s.run.done = false)
    (hrun : s.runs .ex = true) (hb : s.pipe.idEx.inst.kind.isBranch = true) :
    s.pred.pValid = true := by
  obtain ⟨hpending, -⟩ := h.protocol (runs_ex.mp hrun).2 hdone
  exact hpending.trans hb

/-- How the run stands after a cycle: as before it, or ended by a stage, by WB's HALT or by a branch
that met no prediction (R321, R374, R376). -/
theorem CycleEnd.run_cases {u t : State} (h : CycleEnd u t) :
    t.run.done = u.run.done ∧ t.run.faulted = u.run.faulted ∨
      t.run.done = true ∧ (
        (∃ f, u.stop = some f ∧ t.run.faulted = some f) ∨
        (∃ f, u.wires.wbHalt = some f ∧ t.run.faulted = f) ∨
        ∃ b, u.wires.exBranch = some b ∧ u.pred.pValid = false) := by
  cases h
  case stopped f hstop => exact .inr ⟨rfl, .inl ⟨f, hstop, rfl⟩⟩
  case retired f hwb => exact .inr ⟨rfl, .inr (.inl ⟨f, hwb, rfl⟩)⟩
  case broken taken target hb hv => exact .inr ⟨rfl, .inr (.inr ⟨_, hb, hv⟩)⟩
  all_goals exact .inl (by simp)

/-- A run ends with a fault of MEM or with the one a HALT record carries: EX stops no run, since the
protocol holds (R376). -/
theorem Inv.step_run {s t : State} (hinv : Inv s) (hdone : s.run.done = false)
    (h : step s = .next t) : RunInv t := by
  obtain ⟨o, e, ho, hend, rfl⟩ := step_cases hdone h
  obtain ⟨hrec, hcarried⟩ := hinv.run
  rcases hend.run_cases with ⟨hd, hf⟩ | ⟨hd, ⟨f, hstop, hf⟩ | ⟨f, hwb, hf⟩ | ⟨b, hb, hv⟩⟩
  · simp only [commit_run, propagate_run, beginCycle_run] at hd hf
    simpa only [RunInv, hd, hf] using hinv.run
  · rw [RunInv, hf]
    refine ⟨fun _ => hd, ?_⟩
    rcases stop_cases hstop with hmem | ⟨-, hex⟩
    · obtain ⟨-, -, rfl⟩ := ho.mem.of_memStop (by simp [Wires.idle]) hmem
      rfl
    · obtain ⟨hrun, -, hb, hp⟩ := ho.ex.of_exStop (by simp [Wires.idle]) hex
      simp only [inPhase_pipe, start_curEx hinv.clock, inPhase_runs, start_runs, inPhase_pred,
        propagate_pred, beginCycle_pred] at hrun hb hp
      simp [hinv.branch_predicted hdone hrun hb] at hp
  · rw [RunInv, hf]
    refine ⟨fun _ => hd, ?_⟩
    obtain ⟨-, -, rfl⟩ := ho.wb.of_wbHalt (by simp [Wires.idle]) hwb
    obtain ⟨-, -, -, -, -, -, ⟨hmemWb, -⟩, -⟩ := hinv.latch
    rwa [inPhase_pipe, start_curWb hinv.clock]
  · obtain ⟨-, -, -, hp⟩ := ho.ex.of_exBranch (by simp [Wires.idle]) hb
    simp only [commit_pred, inPhase_pred, propagate_pred, beginCycle_pred] at hv hp
    exact absurd hp (by simp [hv])

/-! ## The prediction protocol (R303, R324 to R328) -/

theorem branchSignal_ctl (s : State) :
    (branchSignal s).ctl.branchInFlight = (s.wires.idBranch.isSome || s.ctl.branchInFlight) ∧
      (branchSignal s).ctl.delayedSecondBranch =
        (s.wires.idBranch.isSome && s.ctl.branchInFlight || s.ctl.delayedSecondBranch) := by
  unfold branchSignal
  split <;> simp [*]

/-- A redirection asks for a prediction exactly when a branch is in flight and none is pending
(R326). -/
theorem redirectFetch_pending {s : State}
    (hjump : s.wires.idJump.isSome = true → s.ctl.branchInFlight = false)
    (hpending : s.pred.pValid = true → s.ctl.branchInFlight = true) :
    (redirectFetch s).pred.pValid = s.ctl.branchInFlight := by
  cases hb : s.ctl.branchInFlight with
  | false =>
    have hp : s.pred.pValid = false := by simpa [hb] using hpending
    cases hj : s.wires.idJump with
    | some target => rw [redirectFetch_jump hj, redirect_pred, hp]
    | none => rw [redirectFetch_consult hj, consult_idle (.inl hb), hp]
  | true =>
    have hj : s.wires.idJump = none := by simpa [hb] using hjump
    rw [redirectFetch_consult hj]
    cases hp : s.pred.pValid with
    | true => rw [consult_idle (.inr hp), hp]
    | false =>
      rw [consult_predicts hb (predict_idle hp)]
      split <;> rfl

theorem redirectFetch_idEx (s : State) : (redirectFetch s).pipe.idEx = s.pipe.idEx := by
  obtain ⟨q, -, e | ⟨target, e⟩⟩ := redirectFetch_cases s <;> rw [e] <;> rfl

/-- The branch that waits for EX is the one in flight and the one predicted, and no second one is
delayed. -/
structure Waiting (s : State) : Prop where
  pending : s.pred.pValid = s.pipe.idEx.inst.kind.isBranch
  inFlight : s.ctl.branchInFlight = s.pipe.idEx.inst.kind.isBranch
  delayed : s.ctl.delayedSecondBranch = false

/-- What a commit must satisfy for the management step to restore the protocol: the branch in flight
is the predicted one, a resolution is its, and the branch now in ID_EX is the one ID has just announced or the
one in flight and not resolved. -/
structure Resolvable (u : State) : Prop where
  pending : u.pred.pValid = u.ctl.branchInFlight
  delayed : u.ctl.delayedSecondBranch = false
  resolves : u.wires.exBranch.isSome = true → u.ctl.branchInFlight = true
  waits : u.pipe.idEx.inst.kind.isBranch =
    (u.wires.idBranch.isSome || u.ctl.branchInFlight && u.wires.exBranch.isNone)
  fresh : u.wires.idBranch.isSome = true →
    (u.ctl.branchInFlight && u.wires.exBranch.isNone) = false
  jump : u.wires.idJump.isSome = true → u.pipe.idEx.inst.kind.isBranch = false

/-- The redirection gives the branch in flight its prediction. -/
theorem waiting_hazardStep {s : State}
    (hflight : s.ctl.branchInFlight = s.pipe.idEx.inst.kind.isBranch)
    (hdelayed : s.ctl.delayedSecondBranch = false)
    (hjump : s.wires.idJump.isSome = true → s.pipe.idEx.inst.kind.isBranch = false)
    (hpending : s.pred.pValid = true → s.ctl.branchInFlight = true) :
    Waiting (hazardStep (redirectFetch s)) where
  pending := by
    rw [hazardStep_pred, redirectFetch_pending (hflight ▸ hjump) hpending, hazardStep_pipe,
      redirectFetch_idEx, hflight]
  inFlight := by
    rw [hazardStep_ctl, redirectFetch_ctl, hazardStep_pipe, redirectFetch_idEx, hflight]
  delayed := by rw [hazardStep_ctl, redirectFetch_ctl, hdelayed]

theorem CycleEnd.waiting {u t : State} (h : CycleEnd u t) (hu : Resolvable u)
    (hhalt : t.run.halting = false) (hdone : t.run.done = false) : Waiting t := by
  obtain ⟨hpending, hdelayed, hresolves, hwaits, hfresh, hjump⟩ := hu
  obtain ⟨hflight', hdelayed'⟩ := branchSignal_ctl (memorySignal (afterTick u))
  simp only [memorySignal_wires, afterTick_wires, memorySignal_ctl, tickStep_ctl,
    forwardStep_ctl] at hflight' hdelayed'
  cases h
  case flushed p hp =>
    exact ⟨update_clears_pending hp, rfl, rfl⟩
  case hit hb p hp =>
    have hflight : u.ctl.branchInFlight = true := hresolves (by simp [hb])
    refine waiting_hazardStep ?_ rfl (by simpa using hjump)
      (fun hv => by simp [update_clears_pending hp] at hv)
    simp [predictHit, hflight', hdelayed', hflight, hdelayed, hwaits, hb]
  case unresolved hb =>
    refine waiting_hazardStep ?_ ?_ (by simpa using hjump) ?_
    · simp [hflight', hwaits, hb]
    · simp only [hb, Option.isNone_none, Bool.and_true] at hfresh
      rw [hdelayed', hdelayed, Bool.or_false]
      cases hs : u.wires.idBranch.isSome with
      | false => rfl
      | true => rw [hfresh hs]; rfl
    · simp only [branchSignal_pred, memorySignal_pred, tickStep_pred, forwardStep_pred, hpending,
        hflight', Bool.or_eq_true]
      exact .inr
  case halting => cases hhalt
  all_goals cases hdone

theorem IdAnswer.signals {q d : State} (h : IdAnswer q d) (hrun : q.runs .id = true)
    (hb : q.wires.idBranch = none) (hj : q.wires.idJump = none) :
    d.wires.idBranch.isSome = (q.wires.idFresh && d.pipe.idEx.inst.kind.isBranch) ∧
      (d.wires.idJump.isSome = true → d.pipe.idEx.inst.kind.isBranch = false) := by
  cases h
  case stopped hstopped => exact absurd hstopped (by simp [hrun])
  case bubble => simp [idBubble, hb, hj, Decoded.nop, Kind.isBranch]
  case plain hk => simp [idDecode, hb, hj, hk]
  case jump hk target => simp [idDecode, assertJump, hb, hk]
  case branch hk target =>
    rw [assertBranch_eq]
    cases hfresh : q.wires.idFresh <;> simp [idDecode, hfresh, hb, hj, hk]

theorem IdAnswer.of_stopped {q d : State} (h : IdAnswer q d) (hrun : q.runs .id = false) : d = q := by
  cases h
  case stopped => rfl
  all_goals simp_all

theorem ExAnswer.of_stopped {q e : State} (h : ExAnswer q e) (hrun : q.runs .ex = false) : e = q := by
  cases h
  case stopped => rfl
  all_goals simp_all

/-- Whether ID runs does not depend on the registers it is given (R302). -/
theorem id_runs (s : State) (r : Vector Word 32) :
    ({ propagate (beginCycle s) with regs := r }.inPhase .id).runs .id = s.runs .id :=
  start_runs s .id

/-- The decode ID does again is of the latch it decoded before (R303). -/
abbrev Latch.sameFetch (l m : Latch) : Prop :=
  l.word = m.word ∧ l.valid = m.valid ∧ l.fault = m.fault

theorem kind_eq_of_sameFetch {h : Word} {l m : Latch} (hl : l.decoded h) (hm : m.decoded h)
    (e : l.sameFetch m) : l.inst.kind = m.inst.kind := by
  obtain ⟨hword, hvalid, hfault⟩ := e
  rw [hl.2, hm.2, hword, hvalid, hfault]

section
variable {s : State} {o : Bodies} (hinv : Inv s) (ho : StepAnswers s o)
  (hdone : s.run.done = false) (hhalt : s.run.halting = false)
include hinv ho hdone

/-- An EX that runs resolves the branch that waits for it, and nothing else (R307). -/
theorem Inv.exBranch_isSome (hrun : s.runs .ex = true) :
    o.ex.wires.exBranch.isSome = s.pipe.idEx.inst.kind.isBranch := by
  have hcur : ((propagate (beginCycle s)).inPhase .ex).pipe.curEx = s.pipe.idEx := by
    rw [inPhase_pipe, start_curEx hinv.clock]
  obtain ⟨-, -, hidEx, -⟩ := hinv.latch
  rw [Bool.eq_iff_iff, Option.isSome_iff_exists]
  constructor
  · rintro ⟨b, hb⟩
    obtain ⟨-, -, hk, -⟩ := ho.ex.of_exBranch (by simp [Wires.idle]) hb
    rwa [hcur] at hk
  · intro hk
    exact ho.ex.resolves (by simpa using hrun) (by rw [hcur]; exact fault_of_branch hidEx hk)
      (by rwa [hcur]) (by simpa using hinv.branch_predicted hdone hrun hk)

include hhalt

/-- A deferred ID holds the latch it last decoded (R303). -/
theorem Inv.commit_sameFetch (hd : 0 < s.clock.defer.id ∨ s.runs .id = true) :
    (o.id.pipe.idEx).sameFetch (propagate (beginCycle s)).pipe.curId := by
  obtain ⟨-, -, -, hsame⟩ := hinv.protocol hhalt hdone
  obtain ⟨-, -, -, -, -, -, -, hex, -, hid, hid'⟩ := hinv.clock
  cases hidRuns : s.runs .id with
  | true =>
    obtain ⟨hword, hvalid, hfault, -, -⟩ := ho.id.latch ((id_runs s _).trans hidRuns)
    exact ⟨hword, hvalid, hfault⟩
  | false =>
    have hdefer : 0 < s.clock.defer.id := hd.resolve_right (by simp [hidRuns])
    have hex0 : s.clock.stall.ex ≠ 0 := by omega
    have hidEx : (propagate (beginCycle s)).pipe.idEx = s.pipe.idEx := by simp [start_pipe, hex0]
    have hcurId : (propagate (beginCycle s)).pipe.curId = s.pipe.curId := by
      simp [start_pipe, Nat.ne_of_gt hdefer]
    rw [ho.id.of_stopped ((id_runs s _).trans hidRuns)]
    simpa [hidEx, hcurId] using hsame hdefer

/-- While ID is deferred, what it leaves in ID_EX is of the kind that waited there (R303). -/
theorem Inv.redecode_kind (hd : 0 < s.clock.defer.id) :
    o.id.pipe.idEx.inst.kind = s.pipe.idEx.inst.kind := by
  obtain ⟨-, -, -, hsame⟩ := hinv.protocol hhalt hdone
  have hnow := hinv.commit_sameFetch ho hdone hhalt (.inl hd)
  have hcurId : (propagate (beginCycle s)).pipe.curId = s.pipe.curId := by
    simp [start_pipe, Nat.ne_of_gt hd]
  rw [hcurId] at hnow
  obtain ⟨hword, hvalid, hfault⟩ := hnow
  obtain ⟨hword', hvalid', hfault'⟩ := hsame hd
  obtain ⟨-, -, hdecoded, -⟩ := ho.latchInv hinv.latch
  obtain ⟨-, -, hidEx, -⟩ := hinv.latch
  rw [commit_idEx, commit_cfg, propagate_cfg, beginCycle_cfg] at hdecoded
  exact kind_eq_of_sameFetch hdecoded hidEx
    ⟨hword.trans hword'.symm, hvalid.trans hvalid'.symm, hfault.trans hfault'.symm⟩

/-- Either EX resolves the branch that waits for it while ID decodes afresh, or EX is stalled and ID
at most decodes again (R303, R307). -/
theorem Inv.resolvable : Resolvable (commit o (propagate (beginCycle s))) := by
  obtain ⟨hpending, hflight, hdelayed, hsame⟩ := hinv.protocol hhalt hdone
  obtain ⟨-, -, -, -, -, -, -, hex, -, hid, hid'⟩ := hinv.clock
  have hctl : (commit o (propagate (beginCycle s))).ctl = s.ctl := by simp
  have hpred : (commit o (propagate (beginCycle s))).pred = s.pred := by simp
  have hstart : ({ propagate (beginCycle s) with regs := o.wb.regs }.inPhase .id).wires.idFresh =
      decide (s.clock.defer.id = 0) := by simp
  suffices hsignals : o.id.pipe.idEx.inst.kind.isBranch = (o.id.wires.idBranch.isSome ||
        s.pipe.idEx.inst.kind.isBranch && o.ex.wires.exBranch.isNone) ∧
      (o.id.wires.idBranch.isSome = true →
        (s.pipe.idEx.inst.kind.isBranch && o.ex.wires.exBranch.isNone) = false) ∧
      (o.ex.wires.exBranch.isSome = true → s.pipe.idEx.inst.kind.isBranch = true) ∧
      (o.id.wires.idJump.isSome = true → o.id.pipe.idEx.inst.kind.isBranch = false) by
    obtain ⟨hwaits, hfresh, hresolves, hjump⟩ := hsignals
    exact ⟨by rw [hpred, hctl, hpending, hflight], by rw [hctl, hdelayed],
      by rwa [hctl, hflight], by rwa [hctl, hflight], by rwa [hctl, hflight], hjump⟩
  by_cases hex0 : s.clock.stall.ex = 0
  case pos =>
    have hidRuns : s.runs .id = true := runs_id.mpr ⟨by omega, hhalt⟩
    have hdefer : s.clock.defer.id = 0 := by omega
    have hresolves := hinv.exBranch_isSome ho hdone (runs_ex.mpr ⟨hex0, hhalt⟩)
    obtain ⟨hbranch, hjump⟩ := ho.id.signals ((id_runs s _).trans hidRuns) (by simp [Wires.idle])
      (by simp [Wires.idle])
    rw [hstart, decide_eq_true hdefer, Bool.true_and] at hbranch
    rw [hbranch, ← Option.not_isSome, hresolves]
    simpa using hjump
  case neg =>
    have hexRuns : s.runs .ex = false := Bool.eq_false_iff.mpr fun h => hex0 (runs_ex.mp h).1
    have hnone : o.ex.wires.exBranch = none := by
      rw [ho.ex.of_stopped (by simpa using hexRuns)]
      simp [Wires.idle]
    rw [hnone]
    have hidEx : (propagate (beginCycle s)).pipe.idEx = s.pipe.idEx := by simp [start_pipe, hex0]
    cases hidRuns : s.runs .id with
    | false =>
      rw [ho.id.of_stopped ((id_runs s _).trans hidRuns)]
      simp [Wires.idle, hidEx]
    | true =>
      have hstall := (runs_id.mp hidRuns).1
      have hdefer : s.clock.defer.id ≠ 0 := by omega
      obtain ⟨hbranch, hjump⟩ := ho.id.signals ((id_runs s _).trans hidRuns) (by simp [Wires.idle])
        (by simp [Wires.idle])
      rw [hstart, decide_eq_false hdefer, Bool.false_and] at hbranch
      have hkind := hinv.redecode_kind ho hdone hhalt (Nat.pos_of_ne_zero hdefer)
      rw [hbranch, hkind]
      rw [hkind] at hjump
      simpa using hjump

end

theorem CycleEnd.halting_mono {u t : State} (h : CycleEnd u t) (hu : u.run.halting = true) :
    t.run.halting = true := by
  cases h
  case halting => rfl
  case stopped => exact hu
  case retired => simpa [retireHalt] using hu
  all_goals simp_all

theorem CycleEnd.sameFetch {u t : State} (h : CycleEnd u t)
    (hu : u.pipe.idEx.sameFetch u.pipe.curId) : t.pipe.idEx.sameFetch t.pipe.curId := by
  rcases h.pipe_cases with e | e | e <;> rw [e]
  · exact hu
  · exact hu
  · exact ⟨rfl, rfl, rfl⟩

theorem Inv.step_protocol {s t : State} (hinv : Inv s) (hdone : s.run.done = false)
    (h : step s = .next t) : ProtocolInv t := by
  intro hhaltT hdoneT
  obtain ⟨o, e, ho, hend, rfl⟩ := step_cases hdone h
  have hhalt : s.run.halting = false := Bool.eq_false_iff.mpr fun hs =>
    Bool.false_ne_true (hhaltT.symm.trans (hend.halting_mono (by simpa using hs)))
  obtain ⟨hpending, hflight, hdelayed⟩ :=
    hend.waiting (hinv.resolvable ho hdone hhalt) hhaltT hdoneT
  refine ⟨hpending, hflight, hdelayed, fun hd => hend.sameFetch ?_⟩
  refine hinv.commit_sameFetch ho hdone hhalt ?_
  by_contra hno
  obtain ⟨hdefer, hidRuns⟩ := not_or.mp hno
  rcases hend.clock_cases with ⟨hended, -⟩ | ⟨r, k, hrk, hc⟩
  · exact Bool.false_ne_true (hdoneT.symm.trans hended)
  · have hran : (commit o (propagate (beginCycle s))).wires.idRan = false := by
      have hstall : s.clock.stall.id ≠ 0 := fun h0 => hidRuns (runs_id.mpr ⟨h0, hhalt⟩)
      simp [hstall]
    have hr := hrk.ran hran
    have htick := tick_bounds s.clock .id
    simp only [StageCounters.get] at htick
    rw [hc, hr] at hd
    simp only [Clock.hazard, commit_clock, propagate_clock, beginCycle_clock, Nat.add_zero] at hd
    split at hd
    · simp only [Clock.request] at hd
      omega
    · omega

/-! ## The register file's hard-wired slot (R22) -/

theorem writeReg_slot_zero (s : State) (r : RegIdx) (v : Word) :
    (s.writeReg r v).regs[0] = s.regs[0] := by
  unfold State.writeReg
  split
  · rfl
  · next hr =>
    have hne : r.toNat ≠ 0 := fun h => hr (BitVec.eq_of_toNat_eq h)
    simp [hne]

theorem Inv.step_zero {s t : State} (hinv : Inv s) (hdone : s.run.done = false)
    (h : step s = .next t) : t.regs[0] = 0#32 := by
  rw [step_regs hinv.clock hdone h, writeReg_slot_zero, hinv.zero]

theorem Inv.step_latch {s t : State} (hinv : Inv s) (hdone : s.run.done = false)
    (h : step s = .next t) : LatchInv t := by
  obtain ⟨o, e, ho, hend, rfl⟩ := step_cases hdone h
  exact hend.latchInv (ho.latchInv hinv.latch)

/-- Settles O57: each part of the invariant by its own step lemma. -/
theorem stepKeepsTheInvariant : Obligations.StepKeepsTheInvariant := by
  intro s t hinv h
  cases hdone : s.run.done with
  | true => rwa [step_of_done hdone h]
  | false =>
    obtain ⟨u, hu, -, hcfg, -, hwires⟩ := runningMachineAlwaysSteps s hdone
    obtain rfl := Host.Outcome.next.inj (hu.symm.trans h)
    exact {
      config := hcfg ▸ hinv.config
      zero := hinv.step_zero hdone h
      wires := hwires
      memory := memoryInv_step hinv.memory hdone h
      predictor := predictorInv_step hinv.predictor hdone h
      clock := stepKeepsClockInv s _ hinv.clock h
      window := windowInv_step hinv.config hinv.window hdone h
      latch := hinv.step_latch hdone h
      protocol := hinv.step_protocol hdone h
      run := hinv.step_run hdone h }

end Sys2Proof.Machine
end

section
/-! Proofs about single steps: branches counted, the halting front end, and the precise memory fault
(53_pipeline_cycle.md R293, R308, R329, 60_exceptions.md R374). -/

namespace Sys2Proof.Machine

/-! ## Branches counted (R329) -/

/-- A cycle counts the branch resolved in it, once, if it comes to the resolution (R320). -/
theorem CycleEnd.resolution_count {u t : State} (h : CycleEnd u t) (hdone : u.run.done = false) :
    t.stats.hits + t.stats.misses = u.stats.hits + u.stats.misses +
        (if u.wires.exBranch.isSome = true ∧ u.wires.exHalt = false ∧ u.run.halting = false ∧
          t.run.done = false then 1 else 0) ∧
      u.stats.hits ≤ t.stats.hits ∧ u.stats.misses ≤ t.stats.misses := by
  have hhazard : ∀ s, (hazardStep s).stats.hits = s.stats.hits ∧
      (hazardStep s).stats.misses = s.stats.misses := fun s => by
    obtain ⟨r, k, -, e⟩ := hazardStep_adds s
    rw [e]
    exact ⟨rfl, rfl⟩
  cases h
  case flushed hex hh taken target hb p hu =>
    simp [mispredict, windowReset, hb, hex, hh, hdone, Nat.add_assoc]
  case hit hex hh taken target hb p hu =>
    simp [hhazard, predictHit, hb, hex, hh, hdone, Nat.add_right_comm]
  case unresolved hb => simp [hhazard, hb]
  case halting hh =>
    rcases hh with hh | hh <;> simp [hh]
  case stopped => simp [endRun]
  case broken => simp [endRun]
  case retired => simp [retireHalt]

/-- Settles O47: EX resolves exactly the branch in ID_EX, and a branch asserts no halt signal. -/
theorem hitsAndMissesCountBranches : Obligations.HitsAndMissesCountBranches := by
  intro s t hinv hdone h
  obtain ⟨o, e, ho, hend, rfl⟩ := step_cases hdone h
  obtain ⟨hcount, hhits, hmisses⟩ := hend.resolution_count (by simpa using hdone)
  have hcur : ((propagate (beginCycle s)).inPhase .ex).pipe.curEx = s.pipe.idEx := by
    rw [inPhase_pipe, start_curEx hinv.clock]
  have hresolved : (o.ex.wires.exBranch.isSome = true ∧ o.ex.wires.exHalt = false ∧
        s.run.halting = false ∧ e.run.done = false) ↔
      s.pipe.idEx.inst.kind.isBranch = true ∧ s.clock.stall.ex = 0 ∧ s.run.halting = false ∧
        e.run.done = false := by
    constructor
    · rintro ⟨hb, -, hhalt, hd⟩
      obtain ⟨b, hb⟩ := Option.isSome_iff_exists.mp hb
      obtain ⟨hrun, -, hk, -⟩ := ho.ex.of_exBranch (by simp [Wires.idle]) hb
      rw [hcur] at hk
      exact ⟨hk, (runs_ex.mp (by simpa using hrun)).1, hhalt, hd⟩
    · rintro ⟨hk, hstall, hhalt, hd⟩
      refine ⟨(hinv.exBranch_isSome ho hdone (runs_ex.mpr ⟨hstall, hhalt⟩)).trans hk, ?_, hhalt, hd⟩
      obtain ⟨-, -, hidEx, -⟩ := hinv.latch
      by_contra hex
      obtain ⟨-, hcause⟩ := ho.ex.of_exHalt (by simp [Wires.idle]) (Bool.eq_true_of_not_eq_false hex)
      obtain ⟨-, -, -, -, hhaltKind, hillegal, -⟩ := (kind_class_exclusive _).1 hk
      rw [hcur] at hcause
      rcases hcause with hf | hc | hc
      · simp [fault_of_branch hidEx hk] at hf
      · exact hillegal hc
      · exact hhaltKind hc
  simp only [commit_exBranch, commit_exHalt, commit_run, commit_stats, propagate_run,
    propagate_stats, beginCycle_run, beginCycle_stats, hresolved] at hcount hhits hmisses
  exact ⟨hcount, hhits, hmisses⟩

/-! ## The halting front end (R293, R322) -/

/-- A halting cycle goes no further than the memory request (R322). -/
theorem CycleEnd.of_halting {u t : State} (h : CycleEnd u t) (hu : u.run.halting = true) :
    t.run.halting = true ∧ t.pc = u.pc ∧ t.pred = u.pred ∧ t.ctl = u.ctl ∧ t.stats = u.stats ∧
      t.win = u.win ∧ t.pipe = u.pipe := by
  refine ⟨h.halting_mono hu, ?_⟩
  cases h
  case stopped | retired | halting => simp
  all_goals simp_all

/-- Settles O48: IF, ID and EX do not run, and the cycle ends before the management step's own
changes. -/
theorem haltingFreezesTheFrontEnd : Obligations.HaltingFreezesTheFrontEnd := by
  intro s t hhalt hdone h
  obtain ⟨o, e, ho, hend, rfl⟩ := step_cases hdone h
  have hstopped : ∀ p ∈ [Stage.ifetch, .id, .ex], s.runs p = false := by simp [State.runs, hhalt]
  have hfetch := ho.ifetch.trans (fetchBody_stopped (by simpa using hstopped .ifetch (by simp)))
  have hex := ho.ex.of_stopped (by simpa using hstopped .ex (by simp))
  obtain ⟨hh, hpc, hpred, hctl, hstats, hwin, hpipe⟩ := hend.of_halting (by simpa using hhalt)
  refine ⟨hh, hpc.trans (by simp [hfetch]), hpred.trans (by simp), hctl.trans (by simp),
    hstats.trans (by simp), ?win, ?exMem⟩
  case win => simp [hwin, commit_win, hfetch]
  case exMem =>
    rw [hpipe, commit_exMem, hex, inPhase_pipe, start_pipe]
    dsimp only
    split
    · exact .inr rfl
    · exact .inl rfl

/-! ## The precise memory fault (R308, R374) -/

theorem width_bytes (k : Kind) : k.width.bytes =
    if [Kind.LB, .LBU, .SB].contains k then 1
      else if [Kind.LH, .LHU, .SH].contains k then 2 else 4 := by
  cases k <;> rfl

/-- An access beyond capacity leaves the state but for the fault it raises (R374). -/
theorem MemAnswer.of_beyond {q m : State} (h : MemAnswer q m) (hrun : q.runs .mem = true)
    (hk : q.pipe.curMem.inst.kind.isLoad = true ∨ q.pipe.curMem.inst.kind.isStore = true)
    (hb : q.cfg.memCapacity < q.pipe.curMem.out.toNat + q.pipe.curMem.inst.kind.width.bytes) :
    m = { q with wires.memStop := some (.outOfBounds q.pipe.curMem.out) } := by
  cases h
  case stopped hstopped => simp [hrun] at hstopped
  case passes hl hs => simp [hl, hs] at hk
  case loads hfit _ => exact absurd hfit (Nat.not_le.mpr hb)
  case stores hfit => exact absurd hfit (Nat.not_le.mpr hb)
  case faults => rfl

theorem CycleEnd.of_stop {u t : State} (h : CycleEnd u t) {f : Fault} (hu : u.stop = some f) :
    t = endRun f u := by
  cases h
  case stopped f' hstop => rw [Option.some.inj (hu.symm.trans hstop)]
  all_goals simp_all

/-- Settles O49: MEM's fault ends the cycle at its commit, which WB shares. -/
theorem memoryFaultIsPrecise : Obligations.MemoryFaultIsPrecise := by
  intro s hinv hdone hstall k ea n hk hbeyond
  obtain ⟨t, h⟩ := step_exists hdone
  have hregs := step_regs hinv.clock hdone h
  obtain ⟨-, -, -, -, -, -, hmemWb, -⟩ := hinv.latch
  rw [dest_of_executed hmemWb] at hregs
  obtain ⟨o, e, ho, hend, rfl⟩ := step_cases hdone h
  have hcur : ((propagate (beginCycle s)).inPhase .mem).pipe.curMem = s.pipe.exMem := by
    rw [inPhase_pipe, start_curMem hinv.clock]
  have hmem := ho.mem.of_beyond (by simpa using runs_mem.mpr hstall) (by rwa [hcur])
    (by rw [hcur, width_bytes, inPhase_cfg, propagate_cfg, beginCycle_cfg]; exact hbeyond)
  rw [hcur] at hmem
  have hstop : (commit o (propagate (beginCycle s))).stop = some (.outOfBounds ea) := by
    simp [State.stop, hmem, ea]
  obtain rfl := hend.of_stop hstop
  refine ⟨_, h, rfl, rfl, ?_, hregs, ?_, ?_, ?_, ?_, ?_, ?_, ?_, step_faults rfl rfl⟩
  all_goals simp [hmem]

end Sys2Proof.Machine
end

section
/-! Proofs about an instruction's way from EX to its end, over the cycles it takes
(53_pipeline_cycle.md R308, R310, R321, 60_exceptions.md R373). -/

namespace Sys2Proof.Machine

/-! ## One stage of the way -/

section
variable {u t : State} (h : CycleEnd u t)
include h

theorem CycleEnd.exMem : t.pipe.exMem = u.pipe.exMem := by
  rcases h.pipe_cases with e | e | e <;> rw [e]

theorem CycleEnd.memWb : t.pipe.memWb = u.pipe.memWb := by
  rcases h.pipe_cases with e | e | e <;> rw [e]

/-- MEM's stall counter after a cycle that ends no run: a request adds its two cycles (R323). -/
theorem CycleEnd.stall_mem (ht : t.run.done = false) :
    t.clock.stall.mem = u.clock.stall.mem - 1 + if u.wires.memReq then 2 else 0 := by
  rcases h.clock_cases with ⟨hended, -⟩ | ⟨r, k, -, hc⟩
  · exact absurd hended (by simp [ht])
  · rw [hc]
    split <;> rfl

/-- A halt signal of EX leaves the machine halting, if the cycle ends no run (R322). -/
theorem CycleEnd.of_exHalt (ht : t.run.done = false) (hex : u.wires.exHalt = true) :
    t.run.halting = true := by
  cases h
  case halting => rfl
  case stopped => cases ht
  case retired => cases ht
  case broken => cases ht
  all_goals simp_all

/-- A halt signal of WB ends the run with the fault it reports (R321). -/
theorem CycleEnd.of_wbHalt (hstop : u.stop = none) {f : Option Fault}
    (hwb : u.wires.wbHalt = some f) : t.run.done = true ∧ t.run.faulted = f := by
  cases h
  case retired f' hwb' =>
    obtain rfl := Option.some.inj (hwb.symm.trans hwb')
    exact ⟨rfl, rfl⟩
  all_goals simp_all

end

theorem MemAnswer.of_pass {q m : State} (h : MemAnswer q m) (hrun : q.runs .mem = true)
    (hl : q.pipe.curMem.inst.kind.isLoad = false) (hs : q.pipe.curMem.inst.kind.isStore = false) :
    m = memPass q := by
  cases h
  case passes => rfl
  all_goals simp_all

theorem MemAnswer.of_store {q m : State} (h : MemAnswer q m) (hrun : q.runs .mem = true)
    (hs : q.pipe.curMem.inst.kind.isStore = true)
    (hfit : q.pipe.curMem.out.toNat + q.pipe.curMem.inst.kind.width.bytes ≤ q.cfg.memCapacity) :
    m.mem = memPutBytes q.mem q.pipe.curMem.out.toNat
      (storeBytes q.pipe.curMem.b q.pipe.curMem.inst.kind.width) := by
  have hexclusive : q.pipe.curMem.inst.kind.isLoad = false := by
    revert hs
    cases q.pipe.curMem.inst.kind <;> decide
  cases h
  case stores => rfl
  case faults hb => exact absurd hfit (Nat.not_le.mpr hb)
  all_goals simp_all

theorem WbAnswer.of_halt {q w : State} (h : WbAnswer q w) (hrun : q.runs .wb = true)
    (hk : q.pipe.curWb.inst.kind = .HALT) : w = wbHalt q := by
  cases h
  case halts => rfl
  all_goals simp_all

section
variable {s t : State} (hclock : ClockInv s) (hdone : s.run.done = false) (h : step s = .next t)
include hclock hdone h

/-- An instruction without a data access passes MEM in one cycle (R308). -/
theorem step_memWb (hstall : s.clock.stall.mem = 0) (hl : s.pipe.exMem.inst.kind.isLoad = false)
    (hs : s.pipe.exMem.inst.kind.isStore = false) : t.pipe.memWb = s.pipe.exMem := by
  obtain ⟨o, e, ho, hend, rfl⟩ := step_cases hdone h
  have hcur : ((propagate (beginCycle s)).inPhase .mem).pipe.curMem = s.pipe.exMem := by
    rw [inPhase_pipe, start_curMem hclock]
  have hmem := ho.mem.of_pass (by simpa using runs_mem.mpr hstall) (by rwa [hcur]) (by rwa [hcur])
  refine hend.memWb.trans ?_
  rw [commit_memWb, hmem]
  exact hcur

/-- A stalled MEM keeps memory and what waits for it; EX, which stalls with it, hands nothing on
(R292, R323). -/
theorem step_stalled {n : Nat} (hstall : s.clock.stall.mem = n + 1) (ht : t.run.done = false) :
    t.mem = s.mem ∧ t.pipe.exMem = s.pipe.exMem ∧ t.clock.stall.mem = n := by
  have hmem : t.mem = s.mem := by
    rcases step_mem_cases hclock hdone h with hm | ⟨hrun, -⟩
    · exact hm
    · omega
  obtain ⟨-, -, -, -, -, -, hbusy, hex, -⟩ := hclock
  obtain ⟨o, e, ho, hend, rfl⟩ := step_cases hdone h
  have hrun : s.runs .ex = false := Bool.eq_false_iff.mpr fun hr => by
    have hex0 := (runs_ex.mp hr).1
    omega
  have hstopped := ho.ex.of_stopped (by simpa using hrun)
  refine ⟨hmem, hend.exMem.trans ?_, (hend.stall_mem ht).trans ?_⟩
  · simp [hstopped, start_pipe, hstall]
  · simp [hstopped, Wires.idle, hstall]

/-- A store that MEM performs: its bytes, or the end of the run (R192, R374). -/
theorem step_store (hstall : s.clock.stall.mem = 0) (hs : s.pipe.exMem.inst.kind.isStore = true) :
    (s.pipe.exMem.out.toNat + s.pipe.exMem.inst.kind.width.bytes ≤ s.cfg.memCapacity →
      t.mem = memPutBytes s.mem s.pipe.exMem.out.toNat
        (storeBytes s.pipe.exMem.b s.pipe.exMem.inst.kind.width)) ∧
    (s.cfg.memCapacity < s.pipe.exMem.out.toNat + s.pipe.exMem.inst.kind.width.bytes →
      t.mem = s.mem ∧ t.run.done = true ∧
        t.run.faulted = some (.outOfBounds s.pipe.exMem.out)) := by
  obtain ⟨o, e, ho, hend, rfl⟩ := step_cases hdone h
  have hcur : ((propagate (beginCycle s)).inPhase .mem).pipe.curMem = s.pipe.exMem := by
    rw [inPhase_pipe, start_curMem hclock]
  have hrun : ((propagate (beginCycle s)).inPhase .mem).runs .mem = true := by
    simpa using runs_mem.mpr hstall
  refine ⟨fun hfit => ?_, fun hb => ?_⟩
  · have hmem := ho.mem.of_store hrun (by rwa [hcur]) (by rw [hcur]; simpa using hfit)
    rw [hcur] at hmem
    exact hend.mem.trans (by simp [hmem])
  · have hmem := ho.mem.of_beyond hrun (.inr (by rwa [hcur])) (by rw [hcur]; simpa using hb)
    rw [hcur] at hmem
    have hstop : (commit o (propagate (beginCycle s))).stop = some (.outOfBounds s.pipe.exMem.out) := by
      simp [State.stop, hmem]
    obtain rfl := hend.of_stop hstop
    exact ⟨by simp [hmem], rfl, rfl⟩

end

/-! ## An ALU-class instruction (R123, R310) -/

/-- The step in which EX executes an instruction: `exec`'s answer is what EX commits (log 4). -/
theorem step_execute {s t : State} {i : Instr} (hclock : ClockInv s) (hdone : s.run.done = false)
    (hhalt : s.run.halting = false) (hstall : s.clock.stall.ex = 0) (hf : s.pipe.idEx.fault = none)
    (hi : s.pipe.idEx.inst.instr s.pipe.idEx.word = some i) (h : step s = .next t) :
    ∃ x o e, exec i ((propagate (beginCycle s)).inPhase .ex) = .next x ∧ o.ex = x ∧
      CycleEnd (commit o (propagate (beginCycle s))) e ∧ t = { e with wires := Wires.idle } := by
  obtain ⟨hstep, -⟩ := stepRunsTheInstructionsInFlight
  obtain ⟨d, x, m, w, -, -, hx, -, hfinish⟩ := hstep s hdone
  have hcur := start_curEx hclock
  rw [executeBody_executes (by simpa using runs_ex.mpr ⟨hstall, hhalt⟩) (by rwa [hcur])
    (by rwa [hcur])] at hx
  obtain ⟨e, hend, heq⟩ := finishCycle_end (commit ⟨fetchBody (propagate (beginCycle s)), d, x, m, w⟩
    (propagate (beginCycle s)))
  exact ⟨x, _, e, hx, rfl, hend, (Host.Outcome.next.inj (h.symm.trans hfinish)).trans heq⟩

/-- Settles O51: the result goes with the latch through MEM to WB. -/
theorem aluResultIsWrittenTwoCyclesAfterExecute :
    Obligations.AluResultIsWrittenTwoCyclesAfterExecute := by
  intro s s1 s2 s3 i hclock hdone hhalt hstall hf hi hk h1 h2 h3 hdone1 hdone2
  have hclock1 := stepKeepsClockInv _ _ hclock h1
  have hclock2 := stepKeepsClockInv _ _ hclock1 h2
  obtain ⟨x, o, e, hx, rfl, hend, rfl⟩ := step_execute hclock hdone hhalt hstall hf hi h1
  obtain ⟨out, hout⟩ := exec_ex_result (.inl hk) 0 (propagate (beginCycle s))
  have ho : o.ex = exResult (i.record 0).rd out ((propagate (beginCycle s)).inPhase .ex) :=
    Host.Outcome.next.inj (hx.symm.trans hout)
  have hkind : s.pipe.idEx.inst.kind.isAlu = true := (kind_of_instr hi) ▸ hk
  obtain ⟨-, -, hexclusive⟩ := kind_class_exclusive s.pipe.idEx.inst.kind
  obtain ⟨hl, hs, -⟩ := hexclusive (.inl hkind)
  have hexMem : e.pipe.exMem = { s.pipe.idEx with out := out } := by
    rw [hend.exMem, commit_exMem, ho, exResult, exPass, inPhase_pipe, start_curEx hclock]
  have hstallMem : e.clock.stall.mem = 0 := by
    obtain ⟨-, -, -, -, -, -, hbusy, hex, -⟩ := hclock
    have hmem0 : s.clock.stall.mem = 0 := by omega
    rw [hend.stall_mem hdone1]
    simp [ho, Wires.idle, hmem0]
  refine ⟨o.ex, out, hx, by rw [ho]; rfl, ?_⟩
  have hmemWb : s2.pipe.memWb = { s.pipe.idEx with out := out } :=
    (step_memWb hclock1 hdone1 h2 hstallMem (by rw [hexMem]; exact hl)
      (by rw [hexMem]; exact hs)).trans hexMem
  rw [step_regs hclock2 hdone2 h3, hmemWb]
  simp [Decoded.dest, hkind]

/-! ## ILLEGAL (R305, R321, R373) -/

/-- A cycle that finds a HALT record waiting for WB and nothing that stops it ends the run (R321). -/
theorem step_retires {s t : State} (hclock : ClockInv s) (hdone : s.run.done = false)
    (hhalt : s.run.halting = true) (hexMem : s.pipe.exMem = Latch.empty)
    (hk : s.pipe.memWb.inst.kind = .HALT) (h : step s = .next t) :
    t.run.done = true ∧ t.run.faulted = s.pipe.memWb.fault := by
  obtain ⟨o, e, ho, hend, rfl⟩ := step_cases hdone h
  have hcurWb : ((propagate (beginCycle s)).inPhase .wb).pipe.curWb = s.pipe.memWb := by
    rw [inPhase_pipe, start_curWb hclock]
  have hcurMem : ((propagate (beginCycle s)).inPhase .mem).pipe.curMem = Latch.empty := by
    rw [inPhase_pipe, start_curMem hclock, hexMem]
  have hstallWb := hclock.1
  have hwb := ho.wb.of_halt (by simpa using runs_wb.mpr hstallWb) (by rwa [hcurWb])
  have hex := ho.ex.of_stopped (by simp [State.runs, hhalt])
  have hstop : (commit o (propagate (beginCycle s))).stop = none := by
    refine stop_none ?_ (by simp [hex, Wires.idle])
    by_contra hm
    obtain ⟨f, hm⟩ := Option.ne_none_iff_exists'.mp hm
    obtain ⟨-, hk, -⟩ := ho.mem.of_memStop (by simp [Wires.idle]) hm
    rw [hcurMem] at hk
    rcases hk with hk | hk <;> cases hk
  exact hend.of_wbHalt hstop (by rw [commit_wbHalt, hwb, wbHalt, hcurWb])

/-- A halting EX hands nothing on to a MEM that runs (R292, R322). -/
theorem step_halting_exMem {s t : State} (hclock : ClockInv s) (hdone : s.run.done = false)
    (hhalt : s.run.halting = true) (hstall : s.clock.stall.mem = 0) (h : step s = .next t) :
    t.pipe.exMem = Latch.empty := by
  obtain ⟨-, -, -, hdmem, -⟩ := hclock
  obtain ⟨o, e, ho, hend, rfl⟩ := step_cases hdone h
  have hex := ho.ex.of_stopped (by simp [State.runs, hhalt])
  exact hend.exMem.trans (by simp [hex, start_pipe, hdmem, hstall])

/-- Settles O50: the HALT record that carries the fault reaches WB behind nothing that could stop the
run. -/
theorem illegalEndsTheRunAtWriteBack : Obligations.IllegalEndsTheRunAtWriteBack := by
  intro s s1 s2 s3 hclock hdone hhalt hstall hf hk h1 h2 h3 hdone1 hdone2
  have hclock1 := stepKeepsClockInv _ _ hclock h1
  have hclock2 := stepKeepsClockInv _ _ hclock1 h2
  obtain ⟨o, e, ho, hend, rfl⟩ := step_cases hdone h1
  have hcur : ((propagate (beginCycle s)).inPhase .ex).pipe.curEx = s.pipe.idEx := by
    rw [inPhase_pipe, start_curEx hclock]
  have hex := ho.ex.of_illegal (by simpa using runs_ex.mpr ⟨hstall, hhalt⟩) (by rwa [hcur])
    (by rwa [hcur])
  rw [hcur] at hex
  have hhalt1 : e.run.halting = true := hend.of_exHalt hdone1 (by rw [commit_exHalt, hex]; rfl)
  have hexMem : e.pipe.exMem = { s.pipe.idEx with
      inst := Instr.halt.record s.cfg.haltWord
      fault := some (.illegalInstruction s.pipe.idEx.pc) } := by
    rw [hend.exMem, commit_exMem, hex, raiseInEx, hcur, State.haltRecord, inPhase_cfg,
      propagate_cfg, beginCycle_cfg]
  have hstallMem : e.clock.stall.mem = 0 := by
    obtain ⟨-, -, -, -, -, -, hbusy, hstallEx, -⟩ := hclock
    have hmem0 : s.clock.stall.mem = 0 := by omega
    rw [hend.stall_mem hdone1]
    simp [hex, raiseInEx, Wires.idle, hmem0]
  have hmemWb := (step_memWb hclock1 hdone1 h2 hstallMem (by rw [hexMem]; rfl)
    (by rw [hexMem]; rfl)).trans hexMem
  have hexMem2 := step_halting_exMem hclock1 hdone1 hhalt1 hstallMem h2
  obtain ⟨hhalt2, -⟩ := haltingFreezesTheFrontEnd { e with wires := Wires.idle } _ hhalt1 hdone1 h2
  obtain ⟨hd, hfault⟩ := step_retires hclock2 hdone2 hhalt2 hexMem2 (by rw [hmemWb]; rfl) h3
  rw [hmemWb] at hfault
  refine ⟨hhalt1, hd, hfault, fun f => ?_⟩
  rw [step_faults hd hfault]
  exact ⟨fun e => (Host.Outcome.fault.inj e).symm, fun e => congrArg _ e.symm⟩

/-! ## A store (R192, R323, R374) -/

theorem store_width_bytes {k : Kind} (h : k.isStore = true) :
    k.width.bytes = if k = .SB then 1 else if k = .SH then 2 else 4 := by
  revert h
  cases k <;> decide

theorem step_cfg {s t : State} (hdone : s.run.done = false) (h : step s = .next t) :
    t.cfg = s.cfg := by
  obtain ⟨u, hu, -, hcfg, -⟩ := runningMachineAlwaysSteps s hdone
  rwa [Host.Outcome.next.inj (h.symm.trans hu)]

/-- Settles O52: the store waits out the memory stall it asked for, then MEM performs it. -/
theorem storeReachesMemoryThreeCyclesAfterExecute :
    Obligations.StoreReachesMemoryThreeCyclesAfterExecute := by
  intro s s1 s2 s3 s4 hclock hmemory hdone hhalt hstall hf hk h1 h2 h3 h4 hdone1 hdone2 hdone3 k ea n
  have hclock1 := stepKeepsClockInv _ _ hclock h1
  have hclock2 := stepKeepsClockInv _ _ hclock1 h2
  have hclock3 := stepKeepsClockInv _ _ hclock2 h3
  obtain ⟨hwf1, -⟩ := memoryInv_step hmemory hdone h1
  obtain ⟨o, e, ho, hend, rfl⟩ := step_cases hdone h1
  have hcur : ((propagate (beginCycle s)).inPhase .ex).pipe.curEx = s.pipe.idEx := by
    rw [inPhase_pipe, start_curEx hclock]
  have hex := ho.ex.of_access (by simpa using runs_ex.mpr ⟨hstall, hhalt⟩) (by rwa [hcur])
    (.inr (by rwa [hcur]))
  rw [hcur] at hex
  have hexMem : e.pipe.exMem =
      { s.pipe.idEx with out := s.pipe.idEx.a + s.pipe.idEx.inst.imm } := by
    rw [hend.exMem, commit_exMem, hex, exAddress, exPass, hcur]
    rfl
  have hstallMem : e.clock.stall.mem = 2 := by
    obtain ⟨-, -, -, -, -, -, hbusy, hstallEx, -⟩ := hclock
    have hmem0 : s.clock.stall.mem = 0 := by omega
    rw [hend.stall_mem hdone1]
    simp [hex, exAddress, hmem0]
  obtain ⟨hmem2, hexMem2, hstall2⟩ := step_stalled hclock1 hdone1 h2 hstallMem hdone2
  obtain ⟨hmem3, hexMem3, hstall3⟩ := step_stalled hclock2 hdone2 h3 hstall2 hdone3
  have hexMem3 := hexMem3.trans (hexMem2.trans hexMem)
  have hmem3 := hmem3.trans hmem2
  have hcfg3 : s3.cfg = s.cfg :=
    (step_cfg hdone2 h3).trans ((step_cfg hdone1 h2).trans (step_cfg hdone h1))
  obtain ⟨hfits, hbeyond⟩ := step_store hclock3 hdone3 h4 hstall3 (by rw [hexMem3]; exact hk)
  rw [hexMem3, hcfg3, store_width_bytes hk] at hfits hbeyond
  refine ⟨hmem2, hmem3, fun hfit a => ?_, fun hb => ?_⟩
  · rw [State.readByte, hfits hfit, hmem3, memByte_storeBytes hwf1, store_width_bytes hk]
    rfl
  · obtain ⟨hm, hd, hf⟩ := hbeyond hb
    refine ⟨hm.trans hmem3, hd, hf.trans ?_⟩
    rw [BitVec.ofNat_toNat, BitVec.setWidth_eq]

end Sys2Proof.Machine
end

section
/-! Proofs about the image loader and construction (70_reset_and_hazards.md R400, R401). -/

namespace Sys2Proof.Machine

/-! ## Hexadecimal tokens (R400) -/

theorem hexDigit_of_lower : ∀ d ∈ "0123456789abcdef".toList.zipIdx, hexDigit d.1 = some d.2 := by
  decide

theorem hexDigit_of_upper : ∀ d ∈ "0123456789ABCDEF".toList.zipIdx, hexDigit d.1 = some d.2 := by
  decide

/-- A character with a digit's value is one of the digits of either case. -/
theorem mem_digits_of_hexDigit {c : Char} {n : Nat} (h : hexDigit c = some n) :
    c ∈ "0123456789abcdefABCDEF".toList := by
  have hrange : c.toNat ∈ (List.range 10).map (· + 48) ++ (List.range 6).map (· + 65) ++
      (List.range 6).map (· + 97) := by
    unfold hexDigit at h
    dsimp only at h
    simp only [List.mem_append, List.mem_map, List.mem_range]
    split at h
    · exact .inl (.inl ⟨c.toNat - 48, by omega⟩)
    · split at h
      · exact .inl (.inr ⟨c.toNat - 65, by omega⟩)
      · split at h
        · exact .inr ⟨c.toNat - 97, by omega⟩
        · cases h
  have hdigits : ∀ k ∈ (List.range 10).map (· + 48) ++ (List.range 6).map (· + 65) ++
      (List.range 6).map (· + 97), Char.ofNat k ∈ "0123456789abcdefABCDEF".toList := by decide
  have hc := hdigits _ hrange
  rwa [Char.ofNat_toNat] at hc

theorem hexFrom_digits (acc : Nat) (digits : List (Char × Nat))
    (h : ∀ d ∈ digits, hexDigit d.1 = some d.2) :
    hexFrom acc (digits.map Prod.fst) = some (digits.foldl (fun n d => 16 * n + d.2) acc) := by
  induction digits generalizing acc with
  | nil => rfl
  | cons d rest ih =>
    simp only [List.map_cons, hexFrom, h d (by simp), List.foldl_cons]
    rw [ih _ fun x hx => h x (by simp [hx]), Nat.mul_comm]

theorem hexFrom_bad (acc : Nat) {t : List Char} {c : Char} (hc : c ∈ t) (hbad : hexDigit c = none) :
    hexFrom acc t = none := by
  induction t generalizing acc with
  | nil => cases hc
  | cons x rest ih =>
    unfold hexFrom
    rcases List.mem_cons.mp hc with rfl | hc
    · rw [hbad]
    · split
      · exact ih _ hc
      · rfl

theorem hexValue_digits {digits : List (Char × Nat)} (hne : digits ≠ [])
    (h : ∀ d ∈ digits, hexDigit d.1 = some d.2) :
    hexValue (digits.map Prod.fst) = some (digits.foldl (fun n d => 16 * n + d.2) 0) := by
  rw [hexValue, if_neg (by simpa using hne), hexFrom_digits 0 digits h]

theorem hexValue_bad {t : List Char} {c : Char} (hc : c ∈ t) (hbad : hexDigit c = none) :
    hexValue t = none := by
  rw [hexValue, hexFrom_bad 0 hc hbad, ite_self]

theorem hexDigit_eq_none {c : Char} (h : c ∉ "0123456789abcdefABCDEF".toList) :
    hexDigit c = none := by
  cases hd : hexDigit c with
  | none => rfl
  | some n => exact absurd (mem_digits_of_hexDigit hd) h

/-! ## One token (R400) -/

theorem loadToken_marker_bad {t : List Char} (h : hexValue t = none) (c : Config) (l : Loader) :
    loadToken c l ('@' :: t) = .error .notHex := by
  simp only [loadToken, h]

theorem loadToken_marker {t : List Char} {v : Nat} (h : hexValue t = some v) (c : Config)
    (l : Loader) : loadToken c l ('@' :: t) =
      if c.memCapacity < v then .error (.markerBeyondCapacity v)
      else if c.atMarker = .setSize then .ok { l with size := some v }
      else .ok { l with fill := v } := by
  simp only [loadToken, h]
  cases c.atMarker <;> simp

theorem loadToken_bad {t : List Char} (ht : t.head? ≠ some '@') (h : hexValue t = none) (c : Config)
    (l : Loader) : loadToken c l t = .error .notHex := by
  unfold loadToken
  split
  · exact absurd rfl ht
  · simp only [h]

theorem loadToken_byte {t : List Char} {b : Nat} (ht : t.head? ≠ some '@') (h : hexValue t = some b)
    (c : Config) (l : Loader) : loadToken c l t =
      if 0xFF < b then .error (.byteTooLarge b)
      else if c.memCapacity ≤ l.fill then .error (.byteBeyondCapacity l.fill)
      else .ok { l with mem := memPutByte l.mem l.fill (BitVec.ofNat 8 b), fill := l.fill + 1 } := by
  unfold loadToken
  split
  · exact absurd rfl ht
  · simp only [h]

theorem head_ne_marker {t : List Char} {b : Nat} (h : hexValue t = some b) : t.head? ≠ some '@' := by
  intro hhead
  have hmem : '@' ∈ t := List.mem_of_mem_head? hhead
  rw [hexValue_bad hmem (by decide)] at h
  cases h

/-- A token keeps memory canonical and within capacity. -/
theorem loadToken_keeps {c : Config} {l l' : Loader} {t : List Char}
    (hl : Memory.wf l.mem = true ∧ ∀ x ∈ l.mem, x.1 < c.memCapacity)
    (h : loadToken c l t = .ok l') :
    Memory.wf l'.mem = true ∧ ∀ x ∈ l'.mem, x.1 < c.memCapacity := by
  obtain ⟨hwf, hlt⟩ := hl
  by_cases ht : t.head? = some '@'
  · obtain ⟨t, rfl⟩ := List.head?_eq_some_iff.mp ht
    cases hv : hexValue t with
    | none => cases (loadToken_marker_bad hv c l).symm.trans h
    | some v =>
      rw [loadToken_marker hv] at h
      split at h
      · cases h
      · split at h <;> cases h <;> exact ⟨hwf, hlt⟩
  · cases hv : hexValue t with
    | none => cases (loadToken_bad ht hv c l).symm.trans h
    | some b =>
      rw [loadToken_byte ht hv] at h
      split at h
      · cases h
      · split at h
        · cases h
        · next hfill =>
          cases h
          refine ⟨memory_wf_putByte hwf _ _, fun x hx => ?_⟩
          rcases mem_tablePut _ hx with hx | rfl
          · exact hlt x hx
          · exact Nat.lt_of_not_le hfill

/-! ## All tokens (R400) -/

theorem loadTokens_ok {c : Config} {l l' : Loader} {t : List Char} (h : loadToken c l t = .ok l')
    (rest : List (List Char)) : loadTokens c l (t :: rest) = loadTokens c l' rest := by
  simp only [loadTokens, h]

theorem loadTokens_error {c : Config} {l : Loader} {t : List Char} {e : MalformedImage}
    (h : loadToken c l t = .error e) (rest : List (List Char)) :
    loadTokens c l (t :: rest) = .error e := by
  simp only [loadTokens, h]

theorem loadTokens_keeps {c : Config} {l l' : Loader} {tokens : List (List Char)}
    (hl : Memory.wf l.mem = true ∧ ∀ x ∈ l.mem, x.1 < c.memCapacity)
    (h : loadTokens c l tokens = .ok l') :
    Memory.wf l'.mem = true ∧ ∀ x ∈ l'.mem, x.1 < c.memCapacity := by
  induction tokens generalizing l with
  | nil =>
    cases h
    exact hl
  | cons t rest ih =>
    cases ht : loadToken c l t with
    | ok l'' => exact ih (loadToken_keeps hl ht) ((loadTokens_ok ht rest).symm.trans h)
    | error e => cases (loadTokens_error ht rest).symm.trans h

section
variable (c : Config) {tokens : List (List Char)} {bytes : List Nat}
  (htokens : tokens.map hexValue = bytes.map some) (hbytes : ∀ b ∈ bytes, b ≤ 0xFF)
include htokens hbytes

/-- Byte tokens that fit are written from the fill point on (R400). -/
theorem loadTokens_bytes {l : Loader} (hfit : l.fill + bytes.length ≤ c.memCapacity) :
    loadTokens c l tokens = .ok { l with
      mem := memPutBytes l.mem l.fill (bytes.map (BitVec.ofNat 8))
      fill := l.fill + bytes.length } := by
  induction bytes generalizing l tokens with
  | nil =>
    obtain rfl : tokens = [] := by simpa using htokens
    rfl
  | cons b rest ih =>
    obtain ⟨t, ts, rfl, ht, hts⟩ := List.map_eq_cons_iff.mp htokens
    rw [List.length_cons] at hfit
    have hb := hbytes b (by simp)
    have hload := loadToken_byte (head_ne_marker ht) ht c l
    rw [if_neg (Nat.not_lt.mpr hb), if_neg (by omega)] at hload
    rw [loadTokens_ok hload, ih hts (fun x hx => hbytes x (by simp [hx])) (by simp only; omega)]
    simp only [List.map_cons, memPutBytes, List.length_cons, Nat.add_right_comm, Nat.add_assoc]

/-- Byte tokens that do not fit are refused at the capacity (R400). -/
theorem loadTokens_full {l : Loader} (hfull : c.memCapacity < l.fill + bytes.length)
    (hfill : l.fill ≤ c.memCapacity) :
    loadTokens c l tokens = .error (.byteBeyondCapacity c.memCapacity) := by
  induction bytes generalizing l tokens with
  | nil => simp at hfull; omega
  | cons b rest ih =>
    obtain ⟨t, ts, rfl, ht, hts⟩ := List.map_eq_cons_iff.mp htokens
    rw [List.length_cons] at hfull
    have hb := hbytes b (by simp)
    have hload := loadToken_byte (head_ne_marker ht) ht c l
    rw [if_neg (Nat.not_lt.mpr hb)] at hload
    by_cases hat : c.memCapacity ≤ l.fill
    · rw [if_pos hat] at hload
      rw [loadTokens_error hload, Nat.le_antisymm hat hfill]
    · rw [if_neg hat] at hload
      rw [loadTokens_ok hload]
      exact ih hts (fun x hx => hbytes x (by simp [hx])) (by simp only; omega) (by simp only; omega)

end

/-- Settles O59: digits by a fold, bytes by induction on the tokens, one token by its case. -/
theorem loaderPlacesBytes : Obligations.LoaderPlacesBytes := by
  refine ⟨fun digits hne h => hexValue_digits hne fun d hd =>
      (h d hd).elim (hexDigit_of_lower d) (hexDigit_of_upper d), ?bad,
    fun c l tokens bytes hwf htokens hbytes => ⟨fun hfit => ?fits, loadTokens_full c htokens hbytes,
      fun t rest => ?token⟩, fun c text => ⟨fun l hl hsize => ?size, fun e he => ?refused⟩⟩
  case bad =>
    rintro t (rfl | ⟨c, hc, hbad⟩)
    · rfl
    · exact hexValue_bad hc (hexDigit_eq_none hbad)
  case fits =>
    refine ⟨_, loadTokens_bytes c htokens hbytes hfit, memory_wf_putBytes hwf _ _, fun a => ?_⟩
    rw [memByte_putBytes hwf, List.length_map, ← List.getD_map (f := BitVec.ofNat 8)]
  case token =>
    refine ⟨fun ht hv => ?_, fun v ht hv hbig => ?_, fun hv => ?_, fun v hv => ?_⟩
    · exact loadTokens_error (loadToken_bad ht hv c l) rest
    · exact loadTokens_error ((loadToken_byte ht hv c l).trans (if_pos hbig)) rest
    · exact loadTokens_error (loadToken_marker_bad hv c l) rest
    · have hload := loadToken_marker hv c l
      split
      · next hbig => exact loadTokens_error (hload.trans (if_pos hbig)) rest
      · next hfits =>
        rw [if_neg hfits] at hload
        split
        · next hset => exact loadTokens_ok (hload.trans (if_pos hset)) rest
        · next hset => exact loadTokens_ok (hload.trans (if_neg hset)) rest
  case size =>
    refine ⟨_, by rw [loadImage, hl], ?_⟩
    rw [BitVec.toNat_ofNat, Nat.mod_eq_of_lt hsize]
  case refused =>
    have hload : loadImage c text = .error e := by rw [loadImage, he]
    exact ⟨hload, by rw [construct, hload]⟩

end Sys2Proof.Machine
end

section
/-! Proofs about the constructed machine and every state its runs reach (70_reset_and_hazards.md R401,
60_exceptions.md R376). -/

namespace Sys2Proof.Machine

theorem readReg_init (c : Config) (m : List Host.Cell) (size : Word) (r : RegIdx) :
    (State.init c m size).readReg r = 0 := by
  unfold State.readReg
  split
  · rfl
  · exact Vector.getElem_replicate _

/-- Construction from a canonical image within capacity meets the invariant (R41). -/
theorem inv_init {c : Config} {m : List Host.Cell} (hc : c.wf = true) (hwf : Memory.wf m = true)
    (hlt : ∀ x ∈ m, x.1 < c.memCapacity) (size : Word) : Inv (State.init c m size) where
  config := hc
  zero := rfl
  wires := rfl
  memory := ⟨hwf, hlt⟩
  predictor := by
    have hpos := Nat.two_pow_pos c.idxBits
    exact ⟨rfl, nofun, rfl, nofun, hpos, Nat.lt_of_lt_of_le hpos (two_pow_idxBits_le_bhtSize c)⟩
  clock := by simp [ClockInv, State.init, StageCounters.zero]
  window := ⟨List.length_replicate, Nat.zero_le _, rfl, nofun, nofun⟩
  latch := ⟨fetched_empty, fetched_empty, decoded_empty _, decoded_empty _, executed_empty _,
    executed_empty _, executed_empty _, executed_empty _⟩
  protocol := fun _ _ => ⟨rfl, rfl, rfl, nofun⟩
  run := ⟨nofun, rfl⟩

/-- Settles O56: the empty image is canonical. -/
theorem resetMeetsTheInvariant : Obligations.ResetMeetsTheInvariant :=
  inv_init (by decide) rfl (by simp) 0

/-- What construction answers: the machine at reset, with the image the loader left. -/
theorem construct_ok {c : Config} {text : List Char} {s : State} (h : construct c text = .ok s) :
    ∃ m size, loadImage c text = .ok (m, size) ∧ s = State.init c m size ∧
      Memory.wf m = true ∧ ∀ x ∈ m, x.1 < c.memCapacity := by
  cases htokens : loadTokens c ⟨[], 0, none⟩ (splitTokens [] text) with
  | error e => simp [construct, loadImage, htokens] at h
  | ok l =>
    have hload : loadImage c text = .ok (l.mem, BitVec.ofNat 32 (l.size.getD l.fill)) := by
      simp only [loadImage, htokens]
    simp only [construct, hload] at h
    obtain ⟨hwf, hlt⟩ := loadTokens_keeps ⟨rfl, by simp⟩ htokens
    exact ⟨_, _, hload, (Except.ok.inj h).symm, hwf, hlt⟩

/-- Settles O55: every field is the one `State.init` gives. -/
theorem constructedMachineIsAtReset : Obligations.ConstructedMachineIsAtReset := by
  intro c text s hc h
  obtain ⟨m, size, hload, rfl, hwf, hlt⟩ := construct_ok h
  exact ⟨inv_init hc hwf hlt size, rfl, readReg_init c m size, rfl, rfl, rfl, rfl,
    fun _ => ⟨rfl, rfl⟩, rfl, rfl, rfl, rfl, rfl, rfl, rfl, rfl, hload⟩

theorem inv_of_reaches {s t : State} (hinv : Inv s) (h : Reaches s t) : Inv t := by
  induction h with
  | here => exact hinv
  | next _ hstep ih => exact stepKeepsTheInvariant _ _ ih hstep

/-- A state of the invariant has recorded no ControllerInvariant fault, and so answers none. -/
theorem Inv.no_controllerInvariant {t : State} (h : Inv t) (a : Word) :
    t.run.faulted ≠ some (.controllerInvariant a) ∧ step t ≠ .fault (.controllerInvariant a) := by
  obtain ⟨-, hcarried⟩ := h.run
  have hrecorded : t.run.faulted ≠ some (.controllerInvariant a) := fun hf => by
    rw [hf] at hcarried
    cases hcarried
  refine ⟨hrecorded, fun hstep => ?_⟩
  cases hdone : t.run.done with
  | false =>
    obtain ⟨u, hu⟩ := step_exists hdone
    cases hu.symm.trans hstep
  | true =>
    cases hf : t.run.faulted with
    | none => cases (step_stays hdone hf).symm.trans hstep
    | some f =>
      obtain rfl := Host.Outcome.fault.inj ((step_faults hdone hf).symm.trans hstep)
      exact hrecorded hf

/-- Settles O58, by induction on the run: every state of it meets the invariant. -/
theorem controllerInvariantIsUnreachable : Obligations.ControllerInvariantIsUnreachable := by
  intro c text s t a hc h hreach
  obtain ⟨m, size, -, rfl, hwf, hlt⟩ := construct_ok h
  exact (inv_of_reaches (inv_init hc hwf hlt size) hreach).no_controllerInvariant a

end Sys2Proof.Machine
end

section
/-! Proofs about the way from the bytes at the pc to ID_EX (53_pipeline_cycle.md R301, R302). -/

namespace Sys2Proof.Machine

/-- What a running IF with no block held puts into IF_ID: the word at the pc (R71, R301). -/
theorem fetchBody_fresh {p : State} {i : Instr} (hcfg : p.cfg.wf = true)
    (hrun : p.runs .ifetch = true) (hwin : p.win.valid = false) (hpc : p.pc.toNat % 4 = 0)
    (hfit : p.pc.toNat + 4 ≤ p.cfg.memCapacity)
    (hbytes : decodeBytes p.cfg.haltWord
      ((List.range 4).map (fun k => p.readByte (p.pc.toNat + k))) = .ok (i, [])) :
    ∃ v, decodeWord p.cfg.haltWord v = i ∧ (fetchBody p).pipe.ifId =
      { Latch.empty with pc := p.pc, valid := true, word := v } := by
  have hword : blockWord p.cfg.memCapacity p.mem p.pc.toNat =
      some (memValue p.mem p.pc.toNat .word) := if_pos hfit
  have hfetch : (fetchWord p).2 = .ok (memValue p.mem p.pc.toNat .word) := by
    have hwords := Nat.ne_of_gt (windowWords_pos hcfg)
    rw [fetchWord, fetchWindow_fresh (.inl hwin)]
    exact (windowFetch_loadBlock hwords).trans (by rw [hword])
  refine ⟨_, ?_, by rw [fetchBody_fetched hrun hpc hfetch]⟩
  exact (Prod.mk.inj (Except.ok.inj hbytes)).1

section
variable {s t : State} (h : step s = .next t) (hdone : s.run.done = false)
include h hdone

theorem step_fetches {i : Instr} (hcfg : s.cfg.wf = true) (hhalt : s.run.halting = false)
    (hstall : s.clock.stall.ifetch = 0) (hwin : s.win.valid = false) (hpc : s.pc.toNat % 4 = 0)
    (hfit : s.pc.toNat + 4 ≤ s.cfg.memCapacity)
    (hbytes : decodeBytes s.cfg.haltWord
      ((List.range 4).map (fun k => s.readByte (s.pc.toNat + k))) = .ok (i, []))
    (hvalid : t.pipe.ifId.valid = true) :
    t.pipe.ifId.pc = s.pc ∧ t.pipe.ifId.fault = none ∧
      decodeWord t.cfg.haltWord t.pipe.ifId.word = i := by
  obtain ⟨o, e, ho, hend, rfl⟩ := step_cases hdone h
  obtain ⟨v, hv, hifId⟩ := fetchBody_fresh (p := propagate (beginCycle s)) (i := i)
    (by simpa using hcfg) (by simpa using runs_ifetch.mpr ⟨hstall, hhalt⟩) (by simpa using hwin)
    (by simpa using hpc) (by simpa using hfit)
    (by simpa only [State.readByte, propagate_cfg, propagate_mem, propagate_pc, beginCycle_cfg,
      beginCycle_mem, beginCycle_pc] using hbytes)
  rw [propagate_cfg, beginCycle_cfg] at hv
  rw [propagate_pc, beginCycle_pc] at hifId
  have hcommit : (commit o (propagate (beginCycle s))).pipe.ifId =
      { Latch.empty with pc := s.pc, valid := true, word := v } := by
    rw [commit_ifId, ho.ifetch, hifId]
  have hcfg' : e.cfg = s.cfg := hend.cfg.trans (by simp)
  rcases hend.pipe_cases with hp | hp | hp
  · simp only [hp, hcommit, hcfg', hv]
    exact ⟨trivial, rfl, trivial⟩
  all_goals
    rw [hp] at hvalid
    cases hvalid

/-- ID that runs and is not deferred decodes what waited in IF_ID (R292, R302). -/
theorem step_decodes (hhalt : s.run.halting = false) (hstall : s.clock.stall.id = 0)
    (hdefer : s.clock.defer.id = 0) (hvalid : t.pipe.idEx.valid = true)
    (hifId : s.pipe.ifId.valid = true) (hf : s.pipe.ifId.fault = none) :
    t.pipe.idEx.pc = s.pipe.ifId.pc ∧ t.pipe.idEx.fault = none ∧
      t.pipe.idEx.inst.instr t.pipe.idEx.word =
        some (decodeWord s.cfg.haltWord s.pipe.ifId.word) := by
  obtain ⟨o, e, ho, hend, rfl⟩ := step_cases hdone h
  have hcur : (propagate (beginCycle s)).pipe.curId = s.pipe.ifId := by simp [start_pipe, hdefer]
  obtain ⟨hword, -, hfault, hpc, hinst⟩ :=
    ho.id.latch ((id_runs s _).trans (runs_id.mpr ⟨hstall, hhalt⟩))
  simp only [inPhase_pipe, inPhase_cfg, propagate_cfg, beginCycle_cfg, hcur, hifId, hf,
    Option.isNone_none, Bool.and_self, if_true] at hword hfault hpc hinst
  have hkeep : e.pipe.idEx = o.id.pipe.idEx := by
    rcases hend.pipe_cases with hp | hp | hp <;> rw [hp] at hvalid ⊢
    · rfl
    · rfl
    · cases hvalid
  simp only [hkeep]
  exact ⟨hpc, hfault, by rw [hinst, hword, decoded_instr]⟩

end

/-- Settles O41: IF's step, then ID's. -/
theorem fetchedBytesBecomeTheDecodedInstruction :
    Obligations.FetchedBytesBecomeTheDecodedInstruction := by
  intro s t u i hcfg hdone hhalt hstall hwin hpc hfit hbytes h
  refine ⟨step_fetches h hdone hcfg hhalt hstall hwin hpc hfit hbytes,
    fun hvalid hdone1 hhalt1 hstall1 hdefer1 h1 hvalid1 => ?_⟩
  obtain ⟨hpcT, hfT, hword⟩ := step_fetches h hdone hcfg hhalt hstall hwin hpc hfit hbytes hvalid
  obtain ⟨hpcU, hfU, hinst⟩ := step_decodes h1 hdone1 hhalt1 hstall1 hdefer1 hvalid1 hvalid hfT
  exact ⟨hpcU.trans hpcT, hfU, hword ▸ hinst⟩

end Sys2Proof.Machine
end
